-- ==== Sys2Proof/Word.lean ====
section
/-!
DEFINITION. Words, lanes and the names of places, as 00_scope.md (R3, R4) and 01_state.md (R9) give them.
-/
namespace Sys2Proof

abbrev Byte := BitVec 8
abbrev Half := BitVec 16
abbrev Word := BitVec 32
abbrev DWord := BitVec 64

/-- One vector register: 32 lanes of 32 bits (R9). -/
abbrev VReg := Vector Word 32

/-- Where a warp sits: logical core, context slot on the core (R20 `ctx`) and rank in its block.
The handler warp of a core (R335) has slot 4 and rank 0: it has no rank and no block of its own. -/
structure WKey where
  core : Nat
  slot : Nat
  rank : Nat
  deriving DecidableEq, Repr

/-- The settings of the management interface that have no behaviour of their own
(MGMT_REGISTER_WRITE; R274, R292, R297, R333, R334, R335). -/
inductive MgmtReg where
  | faultArea        -- AREA of the fault records (R334)
  | handlerEntry     -- the firmware handler's entry (R335)
  | zeroPage         -- the firmware zero page (R334, offset 40)
  | tileSaveArea     -- index: context * 1024 + logical core (R292)
  | errorRingBase    -- the error ring (R333)
  | errorRingLen     -- its length in records
  | faultQueueBase   -- the fault queue (R297)
  | faultQueueLog    -- n, 4 to 16
  | faultQueueHead   -- HEAD, written by the driver
  | directory        -- the domain directory (R274)
  | homeModule       -- the number of this module in its fabric domain (R274)
  | hostPage         -- index: context; the context's host page (R280)
  deriving DecidableEq, Repr

/-- What an inbound flit carries (R338): an operation of the name and signal class (`take` and `read` are the tests of a
remote `nwait` and `nrd`), of the message
class (`place` among them), or a part of a bulk copy that a peer makes on this module's memory. -/
inductive FlitOp where
  | signal (name : DWord) (n : Word) (gen : Half) (any : Bool) (domain : Half)
  | wake (name : DWord) (gen : Half) (any : Bool) (domain : Half)
  | deposit (name : DWord) (k : Nat) (value : DWord) (signal : Bool) (domain : Half)
  | message (name : DWord) (tag : Half) (domain : Half) (payload : List Byte)
  | read (name : DWord) (k : Nat) (clear : Bool)
  | take (name : DWord) (min : Word) (wake : Bool)
  | join (name : DWord) (gen : Half)
  | place (name : DWord) (d : Nat) (bytes : List Byte)
  | bulkPut (va : DWord) (bytes : List Byte)
  | bulkGet (va : DWord) (n : Nat)
  deriving DecidableEq, Repr

/-- Where background scrubbing meets an error (R331). -/
inductive ScrubUnit where
  | memory (line : Nat)
  | cellar (line : Nat)
  | scratch (core slot line : Nat)
  | operand (core slot oslot row : Nat)
  deriving DecidableEq, Repr

end Sys2Proof
end

