-- ==== Sys2Proof/Syntax.lean ====
section
/-!
DEFINITION. The abstract syntax: one constructor per row of spec/opcode_table.json.
A word's constructor carries its operand fields as the encoding tables name them (03_encoding.md, 05_, 06_, 07_),
each as wide as its field, the fields in the order of the table; the chain bit C or B and the stall count S of R43 belong to the word, not to the
instruction, and stand in `Header`. A matrix word (R59, R167) has no header. An event (95_what_each_step_holds.md)
has no encoding; its arguments name the objects it happens to.
The words with operand fields stand first, in the order of the table; then the words without, then the events.
-/
namespace Sys2Proof

/-- Bits [31:28] of a warp word (R43): C in slots 0 and 1, B in slot 2, and the stall count S. -/
structure Header where
  cb : Bool
  stall : BitVec 3
  deriving DecidableEq, Repr

inductive Instr where
  /-- PREFIX (R55): Extends the following vector word with a governing mask, zeroing, rounding mode, fourth operand, declared use and data-queue reads. -/
  | pfx (m : BitVec 3) (z : BitVec 1) (r : BitVec 3) (v : BitVec 6) (u : BitVec 3) (q : BitVec 3)
  /-- SADD (R75): Uniform add, 32-bit or 64-bit pair form. -/
  | sadd (d : BitVec 7) (a : BitVec 7) (x : BitVec 1)
  /-- SSUB (R75): Uniform subtract. -/
  | ssub (d : BitVec 7) (a : BitVec 7) (x : BitVec 1)
  /-- SMUL (R75): Uniform multiply, low bits. -/
  | smul (d : BitVec 7) (a : BitVec 7) (x : BitVec 1)
  /-- SMULH_I32 (R75): Uniform signed multiply, high 32 bits. -/
  | smulhI32 (d : BitVec 7) (a : BitVec 7)
  /-- SMULH_N32 (R75): Uniform unsigned multiply, high 32 bits. -/
  | smulhN32 (d : BitVec 7) (a : BitVec 7)
  /-- SDIV_I32 (R76): Uniform signed division that never traps. -/
  | sdivI32 (d : BitVec 7) (a : BitVec 7)
  /-- SDIV_N32 (R76): Uniform unsigned division that never traps. -/
  | sdivN32 (d : BitVec 7) (a : BitVec 7)
  /-- SREM_I32 (R76): Uniform signed remainder. -/
  | sremI32 (d : BitVec 7) (a : BitVec 7)
  /-- SREM_N32 (R76): Uniform unsigned remainder. -/
  | sremN32 (d : BitVec 7) (a : BitVec 7)
  /-- SMIN_I (R75): Uniform signed minimum. -/
  | sminI (d : BitVec 7) (a : BitVec 7) (x : BitVec 1)
  /-- SMIN_N (R75): Uniform unsigned minimum. -/
  | sminN (d : BitVec 7) (a : BitVec 7) (x : BitVec 1)
  /-- SMAX_I (R75): Uniform signed maximum. -/
  | smaxI (d : BitVec 7) (a : BitVec 7) (x : BitVec 1)
  /-- SMAX_N (R75): Uniform unsigned maximum. -/
  | smaxN (d : BitVec 7) (a : BitVec 7) (x : BitVec 1)
  /-- SAND (R75): Uniform bitwise AND. -/
  | sand (d : BitVec 7) (a : BitVec 7) (x : BitVec 1)
  /-- SOR (R75): Uniform bitwise OR. -/
  | sor (d : BitVec 7) (a : BitVec 7) (x : BitVec 1)
  /-- SXOR (R75): Uniform bitwise XOR. -/
  | sxor (d : BitVec 7) (a : BitVec 7) (x : BitVec 1)
  /-- SANDN (R75): Uniform AND NOT. -/
  | sandn (d : BitVec 7) (a : BitVec 7) (x : BitVec 1)
  /-- SSHL (R75): Uniform shift left. -/
  | sshl (d : BitVec 7) (a : BitVec 7) (x : BitVec 1)
  /-- SSHR (R75): Uniform logical shift right. -/
  | sshr (d : BitVec 7) (a : BitVec 7) (x : BitVec 1)
  /-- SSAR (R75): Uniform arithmetic shift right. -/
  | ssar (d : BitVec 7) (a : BitVec 7) (x : BitVec 1)
  /-- SBFE (R74): Uniform bit-field extract by a field spec. -/
  | sbfe (d : BitVec 7) (a : BitVec 7) (x : BitVec 1)
  /-- SBFI (R74): Uniform bit-field insert by the spec in sa+1. -/
  | sbfi (d : BitVec 7) (a : BitVec 7)
  /-- SCLZ (R75): Uniform count of leading zeros. -/
  | sclz (d : BitVec 7) (a : BitVec 7) (x : BitVec 1)
  /-- SPOPC (R75): Uniform population count. -/
  | spopc (d : BitVec 7) (a : BitVec 7) (x : BitVec 1)
  /-- SMOV (R75): Uniform move. -/
  | smov (d : BitVec 7) (a : BitVec 7) (x : BitVec 1)
  /-- SSEL (R75): Uniform select by a predicate. -/
  | ssel (d : BitVec 7) (a : BitVec 7) (x : BitVec 1) (p : BitVec 3)
  /-- SADDI (R77): Uniform add of a sign-extended 15-bit immediate. -/
  | saddi (d : BitVec 7) (i : BitVec 15)
  /-- SMOVI (R77): Uniform move of a sign-extended 15-bit immediate. -/
  | smovi (d : BitVec 7) (i : BitVec 15)
  /-- SMOVH (R77): Shifts sd left by 15 and ORs in a 15-bit immediate. -/
  | smovh (d : BitVec 7) (i : BitVec 15)
  /-- SCMP (R78): Compares two uniform registers or pairs and writes a predicate. -/
  | scmp (p : BitVec 3) (c : BitVec 4) (a : BitVec 7) (b : BitVec 7) (x : BitVec 1)
  /-- SCMPI (R78): Compares a uniform register with a 7-bit immediate and writes a predicate. -/
  | scmpi (p : BitVec 3) (c : BitVec 4) (a : BitVec 7) (i : BitVec 7) (x : BitVec 1)
  /-- SRD (R79): Reads a special register into a uniform register. -/
  | srd (d : BitVec 7) (r : BitVec 7)
  /-- SRD_D (R79): Reads a 64-bit special register into a uniform pair. -/
  | srdD (d : BitVec 7) (r : BitVec 7)
  /-- SRD_V (R79): Writes each active lane's index into a vector register. -/
  | srdV (v : BitVec 7)
  /-- SWR (R80): Writes a uniform register to a special register. -/
  | swr (r : BitVec 7) (a : BitVec 7)
  /-- SWR_D (R80): Writes a uniform pair to a 64-bit special register. -/
  | swrD (r : BitVec 7) (a : BitVec 7)
  /-- PLOG (R79): Combines two predicates by a truth table. -/
  | plog (p : BitVec 3) (b : BitVec 3) (a : BitVec 3) (u : BitVec 4)
  /-- PLOG_M (R79): Combines two lane masks bitwise by a truth table. -/
  | plogM (p : BitVec 3) (b : BitVec 3) (a : BitVec 3) (u : BitVec 4)
  /-- BRA (R127): Branches the whole split when a predicate is true, resolved in the access stream. -/
  | bra (p : BitVec 3) (i : BitVec 16)
  /-- BRA_NOT (R127): Branches the whole split when a predicate is false. -/
  | braNot (p : BitVec 3) (i : BitVec 16)
  /-- BRC_ANY (R127): Branches the split when any active lane of the mask is set. -/
  | brcAny (m : BitVec 3) (i : BitVec 16)
  /-- BRC_ALL (R127): Branches the split when every active lane of the mask is set. -/
  | brcAll (m : BitVec 3) (i : BitVec 16)
  /-- BRC_NONE (R127): Branches the split when no active lane of the mask is set. -/
  | brcNone (m : BitVec 3) (i : BitVec 16)
  /-- VBRA (R128): Divides the split by a lane mask, sending selected lanes to the label. -/
  | vbra (m : BitVec 3) (i : BitVec 16)
  /-- VBRA_NOT (R128): Divides the split, sending unselected lanes to the label. -/
  | vbraNot (m : BitVec 3) (i : BitVec 16)
  /-- CALL (R129): Pushes a link entry, slides the window by K and jumps. -/
  | call (s : BitVec 3) (i : BitVec 16)
  /-- CALLI (R131): Calls through per-lane 64-bit targets, dividing the split by target. -/
  | calli (n : BitVec 6) (s : BitVec 3)
  /-- LEAVE (R136): Removes the split's lanes from its n innermost reconvergence entries. -/
  | leave (n : BitVec 4)
  /-- ARRIVE (R140): Records the warp's arrival at a named block barrier. -/
  | arrive (n : BitVec 4)
  /-- AWAIT (R140): Waits for the generation of the warp's last arrival and writes whether it was ABANDONED. -/
  | await (p : BitVec 3) (n : BitVec 4)
  /-- BSYNC (R140): Arrives at a barrier and then awaits it. -/
  | bsync (p : BitVec 3) (n : BitVec 4)
  /-- BMEMB (R141): Sets a barrier's membership for the next generation. -/
  | bmemb (q : BitVec 1) (a : BitVec 7) (n : BitVec 4)
  /-- CBARRIVE (R142): Records the warp's arrival at a cluster barrier. -/
  | cbarrive (n : BitVec 2)
  /-- CBAWAIT (R142): Waits for a cluster barrier generation. -/
  | cbawait (p : BitVec 3) (n : BitVec 2)
  /-- WAITC (R137): Waits until an engine counter is at most n, raising covered fatal engine faults. -/
  | waitc (c : BitVec 2) (n : BitVec 6)
  /-- SIGCK (R138): Checks the control-flow signature, clearing it or replaying the region. -/
  | sigck (i : BitVec 16)
  /-- JTAKE (R145): Claims a chunk of items from a job card atomically. -/
  | jtake (g : BitVec 7) (q : BitVec 1)
  /-- JSPAWN (R146): Hands a task to a waiting thief or pushes it on the block's deque. -/
  | jspawn (g : BitVec 7)
  /-- JPOP (R147): Takes the inbox task or the newest deque task. -/
  | jpop (g : BitVec 7) (p : BitVec 3)
  /-- JSTEAL (R148): Posts a steal request to a victim core's mailbox. -/
  | jsteal (g : BitVec 7)
  /-- LREFILL (R149): Hands finished lanes new items from the per-core item queue. -/
  | lrefill (v : BitVec 6) (m : BitVec 3)
  /-- VADD (R81): Vector 32-bit add. -/
  | vadd (d : BitVec 6) (a : BitVec 6) (b : BitVec 6)
  /-- VSUB (R81): Vector 32-bit subtract. -/
  | vsub (d : BitVec 6) (a : BitVec 6) (b : BitVec 6)
  /-- VMUL (R81): Vector multiply, low 32 bits. -/
  | vmul (d : BitVec 6) (a : BitVec 6) (b : BitVec 6)
  /-- VMULH_I32 (R81): Vector signed multiply, high bits. -/
  | vmulhI32 (d : BitVec 6) (a : BitVec 6) (b : BitVec 6)
  /-- VMULH_N32 (R81): Vector unsigned multiply, high bits. -/
  | vmulhN32 (d : BitVec 6) (a : BitVec 6) (b : BitVec 6)
  /-- VMAD (R81): Vector multiply-add with the fourth operand from the prefix. -/
  | vmad (d : BitVec 6) (a : BitVec 6) (b : BitVec 6)
  /-- VABSD_I32 (R81): Vector absolute difference of signed values. -/
  | vabsdI32 (d : BitVec 6) (a : BitVec 6) (b : BitVec 6)
  /-- VAND (R81): Vector AND. -/
  | vand (d : BitVec 6) (a : BitVec 6) (b : BitVec 6)
  /-- VOR (R81): Vector OR. -/
  | vor (d : BitVec 6) (a : BitVec 6) (b : BitVec 6)
  /-- VXOR (R81): Vector XOR. -/
  | vxor (d : BitVec 6) (a : BitVec 6) (b : BitVec 6)
  /-- VANDN (R81): Vector AND NOT. -/
  | vandn (d : BitVec 6) (a : BitVec 6) (b : BitVec 6)
  /-- VSHL (R81): Vector shift left. -/
  | vshl (d : BitVec 6) (a : BitVec 6) (b : BitVec 6)
  /-- VSHR (R81): Vector logical shift right. -/
  | vshr (d : BitVec 6) (a : BitVec 6) (b : BitVec 6)
  /-- VSAR (R81): Vector arithmetic shift right. -/
  | vsar (d : BitVec 6) (a : BitVec 6) (b : BitVec 6)
  /-- VCLZ (R81): Vector count of leading zeros. -/
  | vclz (d : BitVec 6) (a : BitVec 6)
  /-- VPOPC (R81): Vector population count. -/
  | vpopc (d : BitVec 6) (a : BitVec 6)
  /-- VADDI (R82): Vector add of a 10-bit immediate. -/
  | vaddi (d : BitVec 6) (a : BitVec 6) (i : BitVec 10)
  /-- VMOVI (R82): Vector move of a sign-extended 15-bit immediate. -/
  | vmovi (d : BitVec 6) (i : BitVec 15)
  /-- VMOVH (R82): Shifts each lane left by 15 and ORs in an immediate. -/
  | vmovh (d : BitVec 6) (i : BitVec 15)
  /-- VADD_H2 (R85): Packed 16-bit wrapping add. -/
  | vaddH2 (d : BitVec 6) (a : BitVec 6) (b : BitVec 6)
  /-- VADDS_H2 (R85): Packed 16-bit saturating add. -/
  | vaddsH2 (d : BitVec 6) (a : BitVec 6) (b : BitVec 6)
  /-- VSUB_H2 (R85): Packed 16-bit wrapping subtract. -/
  | vsubH2 (d : BitVec 6) (a : BitVec 6) (b : BitVec 6)
  /-- VSUBS_H2 (R85): Packed 16-bit saturating subtract. -/
  | vsubsH2 (d : BitVec 6) (a : BitVec 6) (b : BitVec 6)
  /-- VMIN_H2 (R85): Packed 16-bit minimum. -/
  | vminH2 (d : BitVec 6) (a : BitVec 6) (b : BitVec 6)
  /-- VMAX_H2 (R85): Packed 16-bit maximum. -/
  | vmaxH2 (d : BitVec 6) (a : BitVec 6) (b : BitVec 6)
  /-- VACS_H2 (R86): Add-compare-select with survivor bits shifted into the partner register. -/
  | vacsH2 (d : BitVec 6) (a : BitVec 6) (b : BitVec 6)
  /-- VADD_B4 (R87): Packed 8-bit wrapping add. -/
  | vaddB4 (d : BitVec 6) (a : BitVec 6) (b : BitVec 6)
  /-- VADDS_B4 (R87): Packed 8-bit saturating add. -/
  | vaddsB4 (d : BitVec 6) (a : BitVec 6) (b : BitVec 6)
  /-- VMIN_B4 (R87): Packed 8-bit minimum. -/
  | vminB4 (d : BitVec 6) (a : BitVec 6) (b : BitVec 6)
  /-- VMAX_B4 (R87): Packed 8-bit maximum. -/
  | vmaxB4 (d : BitVec 6) (a : BitVec 6) (b : BitVec 6)
  /-- VABSD_B4 (R87): Packed 8-bit absolute difference. -/
  | vabsdB4 (d : BitVec 6) (a : BitVec 6) (b : BitVec 6)
  /-- VDOT4 (R88): Four-way 8-bit dot product accumulated into vd. -/
  | vdot4 (d : BitVec 6) (a : BitVec 6) (b : BitVec 6) (x : BitVec 1) (y : BitVec 1) (z : BitVec 1)
  /-- VDOT8 (R88): Eight-way 4-bit dot product accumulated into vd. -/
  | vdot8 (d : BitVec 6) (a : BitVec 6) (b : BitVec 6) (x : BitVec 1) (y : BitVec 1) (z : BitVec 1)
  /-- VCMP_EQ_I32 (R83): Vector equality compare into a lane mask. -/
  | vcmpEqI32 (m : BitVec 3) (a : BitVec 6) (b : BitVec 6)
  /-- VCMP_NE_I32 (R83): Vector inequality compare into a lane mask. -/
  | vcmpNeI32 (m : BitVec 3) (a : BitVec 6) (b : BitVec 6)
  /-- VCMP_LT_I32 (R83): Vector signed less-than compare. -/
  | vcmpLtI32 (m : BitVec 3) (a : BitVec 6) (b : BitVec 6)
  /-- VCMP_LE_I32 (R83): Vector signed less-or-equal compare. -/
  | vcmpLeI32 (m : BitVec 3) (a : BitVec 6) (b : BitVec 6)
  /-- VCMP_LT_N32 (R83): Vector unsigned less-than compare. -/
  | vcmpLtN32 (m : BitVec 3) (a : BitVec 6) (b : BitVec 6)
  /-- VCMP_LE_N32 (R83): Vector unsigned less-or-equal compare. -/
  | vcmpLeN32 (m : BitVec 3) (a : BitVec 6) (b : BitVec 6)
  /-- VSEL (R83): Selects per lane between two registers by a mask from the prefix. -/
  | vsel (d : BitVec 6) (a : BitVec 6) (b : BitVec 6)
  /-- VMOV (R83): Vector move. -/
  | vmov (d : BitVec 6) (a : BitVec 6)
  /-- VBCAST (R83): Broadcasts lane n of va to every active lane. -/
  | vbcast (d : BitVec 6) (a : BitVec 6) (n : BitVec 5)
  /-- VMIN_I32 (R83): Vector signed minimum. -/
  | vminI32 (d : BitVec 6) (a : BitVec 6) (b : BitVec 6)
  /-- VMIN_N32 (R83): Vector unsigned minimum. -/
  | vminN32 (d : BitVec 6) (a : BitVec 6) (b : BitVec 6)
  /-- VMAX_I32 (R83): Vector signed maximum. -/
  | vmaxI32 (d : BitVec 6) (a : BitVec 6) (b : BitVec 6)
  /-- VMAX_N32 (R83): Vector unsigned maximum. -/
  | vmaxN32 (d : BitVec 6) (a : BitVec 6) (b : BitVec 6)
  /-- VBFE (R84): Vector bit-field extract by a uniform field spec. -/
  | vbfe (d : BitVec 6) (a : BitVec 6) (b : BitVec 7)
  /-- VBFI (R84): Vector bit-field insert by a uniform field spec. -/
  | vbfi (d : BitVec 6) (a : BitVec 6) (b : BitVec 7)
  /-- VPACK_H2 (R84): Narrows two registers into packed halves. -/
  | vpackH2 (d : BitVec 6) (a : BitVec 6) (b : BitVec 7)
  /-- VPACK_B4 (R84): Narrows four registers into packed bytes. -/
  | vpackB4 (d : BitVec 6) (a : BitVec 6) (b : BitVec 7)
  /-- VUNPACK_I16 (R84): Sign-extends packed halves into a pair. -/
  | vunpackI16 (d : BitVec 6) (a : BitVec 6)
  /-- VUNPACK_N16 (R84): Zero-extends packed halves into a pair. -/
  | vunpackN16 (d : BitVec 6) (a : BitVec 6)
  /-- VUNPACK_I8 (R84): Sign-extends packed bytes into a quadruple. -/
  | vunpackI8 (d : BitVec 6) (a : BitVec 6)
  /-- VUNPACK_N8 (R84): Zero-extends packed bytes into a quadruple. -/
  | vunpackN8 (d : BitVec 6) (a : BitVec 6)
  /-- VFADD_F32 (R89): FP32 add, rounded once. -/
  | vfaddF32 (d : BitVec 6) (a : BitVec 6) (b : BitVec 6)
  /-- VFSUB_F32 (R89): FP32 subtract. -/
  | vfsubF32 (d : BitVec 6) (a : BitVec 6) (b : BitVec 6)
  /-- VFMUL_F32 (R89): FP32 multiply. -/
  | vfmulF32 (d : BitVec 6) (a : BitVec 6) (b : BitVec 6)
  /-- VFMIN_F32 (R89): FP32 minimum. -/
  | vfminF32 (d : BitVec 6) (a : BitVec 6) (b : BitVec 6)
  /-- VFMAX_F32 (R89): FP32 maximum. -/
  | vfmaxF32 (d : BitVec 6) (a : BitVec 6) (b : BitVec 6)
  /-- VFABS_F32 (R89): FP32 absolute value. -/
  | vfabsF32 (d : BitVec 6) (a : BitVec 6)
  /-- VFNEG_F32 (R89): FP32 negation. -/
  | vfnegF32 (d : BitVec 6) (a : BitVec 6)
  /-- VFCSGN_F32 (R89): FP32 copy sign. -/
  | vfcsgnF32 (d : BitVec 6) (a : BitVec 6) (b : BitVec 6)
  /-- VFADD_H2 (R89): FP16x2 add. -/
  | vfaddH2 (d : BitVec 6) (a : BitVec 6) (b : BitVec 6)
  /-- VFSUB_H2 (R89): FP16x2 subtract. -/
  | vfsubH2 (d : BitVec 6) (a : BitVec 6) (b : BitVec 6)
  /-- VFMUL_H2 (R89): FP16x2 multiply. -/
  | vfmulH2 (d : BitVec 6) (a : BitVec 6) (b : BitVec 6)
  /-- VFMIN_H2 (R89): FP16x2 minimum. -/
  | vfminH2 (d : BitVec 6) (a : BitVec 6) (b : BitVec 6)
  /-- VFMAX_H2 (R89): FP16x2 maximum. -/
  | vfmaxH2 (d : BitVec 6) (a : BitVec 6) (b : BitVec 6)
  /-- VFABS_H2 (R89): FP16x2 absolute value. -/
  | vfabsH2 (d : BitVec 6) (a : BitVec 6)
  /-- VFNEG_H2 (R89): FP16x2 negation. -/
  | vfnegH2 (d : BitVec 6) (a : BitVec 6)
  /-- VFCSGN_H2 (R89): FP16x2 copy sign. -/
  | vfcsgnH2 (d : BitVec 6) (a : BitVec 6) (b : BitVec 6)
  /-- VFADD_BF2 (R89): BF16x2 add with flushing. -/
  | vfaddBf2 (d : BitVec 6) (a : BitVec 6) (b : BitVec 6)
  /-- VFSUB_BF2 (R89): BF16x2 subtract. -/
  | vfsubBf2 (d : BitVec 6) (a : BitVec 6) (b : BitVec 6)
  /-- VFMUL_BF2 (R89): BF16x2 multiply. -/
  | vfmulBf2 (d : BitVec 6) (a : BitVec 6) (b : BitVec 6)
  /-- VFMIN_BF2 (R89): BF16x2 minimum. -/
  | vfminBf2 (d : BitVec 6) (a : BitVec 6) (b : BitVec 6)
  /-- VFMAX_BF2 (R89): BF16x2 maximum. -/
  | vfmaxBf2 (d : BitVec 6) (a : BitVec 6) (b : BitVec 6)
  /-- VFABS_BF2 (R89): BF16x2 absolute value. -/
  | vfabsBf2 (d : BitVec 6) (a : BitVec 6)
  /-- VFNEG_BF2 (R89): BF16x2 negation. -/
  | vfnegBf2 (d : BitVec 6) (a : BitVec 6)
  /-- VFCSGN_BF2 (R89): BF16x2 copy sign. -/
  | vfcsgnBf2 (d : BitVec 6) (a : BitVec 6) (b : BitVec 6)
  /-- VFFMA (R90): Fused multiply-add into vd, rounded once. -/
  | vffma (d : BitVec 6) (a : BitVec 6) (b : BitVec 6) (f : BitVec 2)
  /-- VFFMS (R90): Fused multiply-subtract of vd. -/
  | vffms (d : BitVec 6) (a : BitVec 6) (b : BitVec 6) (f : BitVec 2)
  /-- VFNMA (R90): Fused negative multiply-add: vd minus the product. -/
  | vfnma (d : BitVec 6) (a : BitVec 6) (b : BitVec 6) (f : BitVec 2)
  /-- VCVT (R93): Converts an element between formats, optionally with stochastic rounding. -/
  | vcvt (d : BitVec 6) (a : BitVec 6) (x : BitVec 4) (y : BitVec 4) (e : BitVec 2)
  /-- VFRCP (R94): Correctly rounded FP32 reciprocal. -/
  | vfrcp (d : BitVec 6) (a : BitVec 6)
  /-- VFRSQ (R94): FP32 reciprocal square root. -/
  | vfrsq (d : BitVec 6) (a : BitVec 6)
  /-- VFSQRT (R94): Correctly rounded FP32 square root. -/
  | vfsqrt (d : BitVec 6) (a : BitVec 6)
  /-- VFEXP2 (R94): FP32 base-2 exponential. -/
  | vfexp2 (d : BitVec 6) (a : BitVec 6)
  /-- VFLOG2 (R94): FP32 base-2 logarithm. -/
  | vflog2 (d : BitVec 6) (a : BitVec 6)
  /-- VFSIN (R94): FP32 sine. -/
  | vfsin (d : BitVec 6) (a : BitVec 6)
  /-- VFCOS (R94): FP32 cosine. -/
  | vfcos (d : BitVec 6) (a : BitVec 6)
  /-- VFTANH (R94): FP32 hyperbolic tangent. -/
  | vftanh (d : BitVec 6) (a : BitVec 6)
  /-- VFSIGM (R94): FP32 logistic sigmoid. -/
  | vfsigm (d : BitVec 6) (a : BitVec 6)
  /-- VFCMP_F32 (R91): FP32 compare into a lane mask. -/
  | vfcmpF32 (m : BitVec 3) (a : BitVec 6) (b : BitVec 6) (c : BitVec 2)
  /-- VFCMP_PACKED (R91): FP16x2 or BF16x2 compare writing all-ones or zero halves. -/
  | vfcmpPacked (d : BitVec 6) (a : BitVec 6) (b : BitVec 6) (f : BitVec 2) (c : BitVec 2)
  /-- VHAD (R96): Unnormalised 32-lane Walsh-Hadamard transform, rounded once. -/
  | vhad (d : BitVec 6) (a : BitVec 6)
  /-- VKFLIP (R97): Negates lanes by keyed random signs. -/
  | vkflip (d : BitVec 6) (a : BitVec 6) (b : BitVec 7)
  /-- VAMAX (R98): Writes the largest magnitude over active lanes to every active lane. -/
  | vamax (d : BitVec 6) (a : BitVec 6)
  /-- VQMX (R99): Quantises 32 lanes to an MX block with packed codes and a scale word. -/
  | vqmx (d : BitVec 6) (a : BitVec 6) (e : BitVec 7)
  /-- VDQMX (R100): Dequantises a packed MX block to FP32. -/
  | vdqmx (d : BitVec 6) (a : BitVec 6) (e : BitVec 7)
  /-- VSHFL_IDX (R101): Shuffles lanes by per-lane index. -/
  | vshflIdx (d : BitVec 6) (a : BitVec 6) (b : BitVec 6)
  /-- VSHFL_XOR (R101): Shuffles lanes by XOR with n. -/
  | vshflXor (d : BitVec 6) (a : BitVec 6) (n : BitVec 5)
  /-- VSHFL_UP (R101): Shuffles lanes up by n. -/
  | vshflUp (d : BitVec 6) (a : BitVec 6) (n : BitVec 5)
  /-- VSHFL_DN (R101): Shuffles lanes down by n. -/
  | vshflDn (d : BitVec 6) (a : BitVec 6) (n : BitVec 5)
  /-- VSHFL_IDX_H2 (R101): Permutes the 64 sixteen-bit halves by index. -/
  | vshflIdxH2 (d : BitVec 6) (a : BitVec 6) (b : BitVec 6)
  /-- VMATCH (R102): Sets per lane the mask of active lanes with bitwise-equal values. -/
  | vmatch (d : BitVec 6) (a : BitVec 6)
  /-- VMATCH_NUM (R102): Numeric FP32 match of active lanes. -/
  | vmatchNum (d : BitVec 6) (a : BitVec 6)
  /-- VBALLOT (R102): Writes the mask of active lanes with non-zero values. -/
  | vballot (d : BitVec 6) (a : BitVec 6)
  /-- VLANEID (R102): Writes each lane's rank among active lanes. -/
  | vlaneid (d : BitVec 6)
  /-- VREDSUM_I32 (R103): Integer sum reduction over active lanes. -/
  | vredsumI32 (d : BitVec 6) (a : BitVec 6)
  /-- VREDSUM_F32 (R103): Exact FP32 sum reduction rounded once. -/
  | vredsumF32 (d : BitVec 6) (a : BitVec 6)
  /-- VREDMAX_I32 (R103): Signed maximum reduction. -/
  | vredmaxI32 (d : BitVec 6) (a : BitVec 6)
  /-- VREDMAX_N32 (R103): Unsigned maximum reduction. -/
  | vredmaxN32 (d : BitVec 6) (a : BitVec 6)
  /-- VREDMAX_F32 (R103): FP32 maximum reduction. -/
  | vredmaxF32 (d : BitVec 6) (a : BitVec 6)
  /-- VREDMIN_I32 (R103): Signed minimum reduction. -/
  | vredminI32 (d : BitVec 6) (a : BitVec 6)
  /-- VREDMIN_N32 (R103): Unsigned minimum reduction. -/
  | vredminN32 (d : BitVec 6) (a : BitVec 6)
  /-- VREDMIN_F32 (R103): FP32 minimum reduction. -/
  | vredminF32 (d : BitVec 6) (a : BitVec 6)
  /-- VSCAN_I32 (R103): Inclusive integer prefix sum. -/
  | vscanI32 (d : BitVec 6) (a : BitVec 6)
  /-- VSCAN_F32 (R103): Inclusive FP32 prefix sum, each rounded once. -/
  | vscanF32 (d : BitVec 6) (a : BitVec 6)
  /-- VSCAN_EX_I32 (R103): Exclusive integer prefix sum. -/
  | vscanExI32 (d : BitVec 6) (a : BitVec 6)
  /-- VSCAN_EX_F32 (R103): Exclusive FP32 prefix sum. -/
  | vscanExF32 (d : BitVec 6) (a : BitVec 6)
  /-- VRDL (R104): Reads one lane of a vector register into a uniform register. -/
  | vrdl (d : BitVec 6) (a : BitVec 6) (b : BitVec 7)
  /-- VWRL (R104): Writes a uniform value to every active lane. -/
  | vwrl (d : BitVec 6) (b : BitVec 7)
  /-- VRDL_D (R104): Reads one lane of a vector pair into a uniform pair. -/
  | vrdlD (d : BitVec 6) (a : BitVec 6) (b : BitVec 7)
  /-- VWRL_D (R104): Writes a uniform pair to every active lane of a vector pair. -/
  | vwrlD (d : BitVec 6) (b : BitVec 7)
  /-- VLD (R109): Vector load of one element per active lane, all lanes checked before any write. -/
  | vld (v : BitVec 6) (p : BitVec 6) (m : BitVec 2) (z : BitVec 2) (q : BitVec 2) (i : BitVec 4)
  /-- VST (R109): Vector store of one element per active lane. -/
  | vst (v : BitVec 6) (p : BitVec 6) (m : BitVec 2) (z : BitVec 2) (q : BitVec 2) (i : BitVec 4)
  /-- SLD (R110): Uniform load, once per split. -/
  | sld (v : BitVec 6) (p : BitVec 6) (m : BitVec 2) (z : BitVec 2) (q : BitVec 2) (i : BitVec 4)
  /-- SST (R110): Uniform store, once per split. -/
  | sst (v : BitVec 6) (p : BitVec 6) (m : BitVec 2) (z : BitVec 2) (q : BitVec 2) (i : BitVec 4)
  /-- VGLD (R115): Gather load through the gather engine, counting on gs. -/
  | vgld (v : BitVec 6) (p : BitVec 6) (m : BitVec 1) (z : BitVec 2) (q : BitVec 2) (h : BitVec 2)
  /-- VGST (R115): Scatter store through the gather engine, counting on gs. -/
  | vgst (v : BitVec 6) (p : BitVec 6) (m : BitVec 1) (z : BitVec 2) (q : BitVec 2) (h : BitVec 2)
  /-- VATOM (R117): Vector atomic read-modify-write per lane in lane order, returning old values. -/
  | vatom (v : BitVec 6) (p : BitVec 6) (o : BitVec 3) (r : BitVec 2) (c : BitVec 3) (y : BitVec 2)
  /-- CATOM (R120): Cellar atomic performed by the bank at scope .k. -/
  | catom (v : BitVec 6) (p : BitVec 6) (o : BitVec 3) (r : BitVec 2) (n : BitVec 1) (y : BitVec 2)
  /-- CFADDO (R121): Contributes lanes under keys to a lauter cell's ordered float fold. -/
  | cfaddo (v : BitVec 6) (p : BitVec 6) (s : BitVec 7)
  /-- CLINE (R122): Applies an element operation across a 128-byte cellar span. -/
  | cline (v : BitVec 6) (p : BitVec 6) (o : BitVec 3)
  /-- CABANDON (R123): Marks keys of a lauter cell as never arriving. -/
  | cabandon (p : BitVec 6) (s : BitVec 7)
  /-- FENCE (R124): Orders the split's accesses as acquire, release or both at a scope. -/
  | fence (o : BitVec 2) (c : BitVec 3)
  /-- ACCRD (R125): Reads one accumulator tile row into a vector register, counting on ax. -/
  | accrd (v : BitVec 6) (l : BitVec 10) (r : BitVec 5)
  /-- ACCWR (R125): Writes a vector register into an accumulator tile row, counting on ax. -/
  | accwr (v : BitVec 6) (l : BitVec 10) (r : BitVec 5)
  /-- CPY (R154): Copy engine moves 1-D or 2-D bytes between a far and a near address. -/
  | cpy (g : BitVec 7) (d : BitVec 1) (y : BitVec 1) (s : BitVec 2)
  /-- CPYO (R156): Fills an operand slot from memory and stamps its swizzle. -/
  | cpyo (g : BitVec 7)
  /-- CPYR (R157): Copies bytes to or from a peer module over the bulk class. -/
  | cpyr (g : BitVec 7)
  /-- CPYP (R158): Prefetches memory into the cluster cache. -/
  | cpyp (g : BitVec 7)
  /-- OCLAIM (R161): Claims an operand slot with a reservation record. -/
  | oclaim (g : BitVec 7)
  /-- OREL (R164): Releases a slot's filled state, optionally unclaiming it. -/
  | orel (g : BitVec 7) (u : BitVec 1)
  /-- OHDR (R165): Reads a slot's record and status. -/
  | ohdr (g : BitVec 7)
  /-- OFILL (R163): Writes one 128-byte chunk of a slot from a vector register. -/
  | ofill (g : BitVec 7) (v : BitVec 6)
  /-- NSIG (R175): Send that adds n to a named entry's pending count. -/
  | nsig (g : BitVec 7) (a : BitVec 1)
  /-- NWAKE (R175): Send that sets a named entry's wake flag. -/
  | nwake (g : BitVec 7) (a : BitVec 1)
  /-- NDEP (R175): Send that writes a deposit slot, optionally adding to the count. -/
  | ndep (g : BitVec 7) (w : BitVec 2) (n : BitVec 1)
  /-- NRD (R176): Reads, and optionally clears, a deposit slot of the caller's entry. -/
  | nrd (g : BitVec 7) (w : BitVec 2) (c : BitVec 1)
  /-- NJOIN (R176): Waits until a named entry is DEAD at a generation. -/
  | njoin (g : BitVec 7)
  /-- NWAIT (R176): Waits until the caller's count reaches min and subtracts it, or ends on the wake flag. -/
  | nwait (g : BitVec 7) (w : BitVec 1)
  /-- NSELF (R176): Sets the caller's accept list and open flag. -/
  | nself (g : BitVec 7)
  /-- WWAIT (R179): Compares a memory word and parks the caller in the wait table when equal. -/
  | wwait (g : BitVec 7) (x : BitVec 1)
  /-- WWAKE (R180): Releases up to n waiters parked on an address, oldest first. -/
  | wwake (g : BitVec 7)
  /-- SREC (R307): Appends a record to a stream from a source and classifies it. -/
  | srec (g : BitVec 7) (v : BitVec 6)
  /-- SWM (R184): Raises a source's watermark. -/
  | swm (g : BitVec 7)
  /-- SIDLE (R184): Marks a source idle. -/
  | sidle (g : BitVec 7)
  /-- SWIN (R185): Tells a fired or amending block its stream, kind, window and start. -/
  | swin (g : BitVec 7)
  /-- SWIN_L (R185): Gives an amend block the late record's key, time and payload. -/
  | swinL (g : BitVec 7) (v : BitVec 6)
  /-- SPUB (R186): Publishes a window result into a result slot. -/
  | spub (g : BitVec 7)
  /-- SAMEND (R186): Revises a published result when the version matches. -/
  | samend (g : BitVec 7)
  /-- SDONE (R187): Declares a window's kernel finished for the output watermark. -/
  | sdone (g : BitVec 7)
  /-- MPOST (R189): Appends a receive buffer to the caller's list. -/
  | mpost (g : BitVec 7)
  /-- MSEND (R190): Sends a message to a named target over the message class. -/
  | msend (g : BitVec 7)
  /-- MSTAT (R191): Removes the caller's oldest receipt. -/
  | mstat (g : BitVec 7) (p : BitVec 3)
  /-- FSREQ (R192): Sends a file request record to the context's service name. -/
  | fsreq (g : BitVec 7) (w : BitVec 2)
  /-- TRAP (R193): Stops the warp and delivers cause TRAP to the context handler. -/
  | trap (i : BitVec 16)
  /-- BRK (R193): Delivers cause BREAK when debugging is enabled, else no effect. -/
  | brk (i : BitVec 16)
  /-- DRAIN (R197): Ends every copy of the served context and logs each. -/
  | drain (a : BitVec 7) (d : BitVec 7)
  /-- WSNAP (R198): Copies one part of a warp's or block's state to memory. -/
  | wsnap (a : BitVec 7) (b : BitVec 7) (p : BitVec 2)
  /-- ACCSPL (R200): Writes a physical accumulator tile to memory. -/
  | accspl (p : BitVec 6) (n : BitVec 10)
  /-- ACCFIL (R200): Fills a physical accumulator tile from memory. -/
  | accfil (p : BitVec 6) (n : BitVec 10)
  /-- MAPSET (R201): Writes one logical-core table entry when its contexts are quiesced. -/
  | mapset (a : BitVec 7) (p : BitVec 3)
  /-- TLBINV (R202): Drops translations of the served context from all TLBs. -/
  | tlbinv (a : BitVec 7) (c : BitVec 3)
  /-- PSRD (R203): Firmware read of a special register. -/
  | psrd (d : BitVec 7) (r : BitVec 7)
  /-- PSRD_D (R203): Firmware read of a 64-bit special register. -/
  | psrdD (d : BitVec 7) (r : BitVec 7)
  /-- PSWR (R203): Firmware write of a special register. -/
  | pswr (r : BitVec 7) (a : BitVec 7)
  /-- PSWR_D (R203): Firmware write of a 64-bit special register. -/
  | pswrD (r : BitVec 7) (a : BitVec 7)
  /-- MMAC (R168): Multiplies two filled operand slots and accumulates into a tile. -/
  | mmac (t : BitVec 10) (a : BitVec 8) (b : BitVec 8)
  /-- MMACT (R168): Multiply-accumulates and then releases both operand slots. -/
  | mmact (t : BitVec 10) (a : BitVec 8) (b : BitVec 8)
  /-- MZERO (R169): Zeroes a tile, sets its type and clears poison and NCONF. -/
  | mzero (t : BitVec 10) (y : BitVec 1)
  /-- MREL (R169): Releases one or two slots after earlier readers complete. -/
  | mrel (p : BitVec 1) (a : BitVec 8) (b : BitVec 8)
  /-- MBARA (R170): Sequencer arrives at a block barrier. -/
  | mbara (n : BitVec 4)
  /-- MBARW (R170): Sequencer arrives and waits for the generation, setting ABN. -/
  | mbarw (n : BitVec 4)
  /-- MSET (R171): Writes an immediate to a sequencer counter. -/
  | mset (n : BitVec 3) (i : BitVec 16)
  /-- MSET_MODE (R171): Writes the sequencer mode register's SAT bit. -/
  | msetMode (s : BitVec 1)
  /-- MDEC (R171): Decrements a sequencer counter, stopping at 0. -/
  | mdec (n : BitVec 3)
  /-- MBNZ (R171): Jumps when a sequencer counter is non-zero. -/
  | mbnz (n : BitVec 3) (d : BitVec 23)
  /-- MBST_AB (R171): Jumps when the ABN status is set. -/
  | mbstAb (d : BitVec 23)
  /-- MBST_NAB (R171): Jumps when the ABN status is clear. -/
  | mbstNab (d : BitVec 23)
  /-- MJMP (R171): Sequencer unconditional jump. -/
  | mjmp (d : BitVec 23)
  /-- NOP (R45): No operation; occupies no pipe and may stand in any slot. -/
  | nop
  /-- RET (R132): Pops a link entry, slides the window back and returns. -/
  | ret
  /-- EXIT (R133): Ends the split's lanes; on the warp's last lane waits for counters, releases at .y, arrives at barriers and marks the name DEAD. -/
  | exit
  /-- REGION (R134): Sets the split's region entry to its own packet. -/
  | region
  /-- LHEAD (R149): Records its packet address in the loop-head register. -/
  | lhead
  /-- RECONV (R135): Marks the split's lanes arrived at the innermost reconvergence entry and parks, merging when all have arrived. -/
  | reconv
  /-- RTE (R195): Ends the handler, resuming the served warp or resetting the context for a fatal record. -/
  | rte
  /-- HBCAST (R196): Halts the served context on every core. -/
  | hbcast
  /-- MNOP (R59): Matrix-stream no operation. -/
  | mnop
  /-- MEND (R172): Stops the sequencer, arriving at and leaving its barriers. -/
  | mend
  /-- RUN_ARBITRATION (R209): The partition's free issue port chooses a ready split by age, priority and last win. -/
  | runArbitration (core part : Nat)
  /-- RESULT_WRITEBACK (R48): A fixed-latency result is written L cycles after issue. -/
  | resultWriteback (k : WKey)
  /-- LOAD_DATA_ARRIVAL (R15): A load's data arrives into its register or data-queue entry. -/
  | loadDataArrival (k : WKey) (id : Nat)
  /-- MMAC_COMPLETE (R166): After 16 cycles the mmac writes its tile, checked by the shadow columns. -/
  | mmacComplete (core slot : Nat)
  /-- ENGINE_OP_COMPLETE (R239): An engine operation completes and retires in issue order, decrementing its counter. -/
  | engineOpComplete (id : Nat)
  /-- COPY_RESUME (R155): A suspended copy resumes at its byte offset after the fault is served. -/
  | copyResume (id : Nat)
  /-- RACKING_SPILL (R216): The racking engine spills the oldest resident frame to the cask. -/
  | rackingSpill (k : WKey)
  /-- RACKING_REFILL (R216): The racking engine refills the newest spilled frame from the cask. -/
  | rackingRefill (k : WKey)
  /-- RACKING_TRANSFER_DONE (R215): A spill or refill completes, letting a waiting call or return proceed. -/
  | rackingTransferDone (k : WKey)
  /-- SEND_RESOLVE (R174): An accepted send is resolved at the target entry and its status written. -/
  | sendResolve (id : Nat)
  /-- MESSAGE_DELIVERY (R190): An accepted message is placed in the target's oldest posted buffer with a receipt. -/
  | messageDelivery (id : Nat)
  /-- BOUNCE_PLACEMENT (R298): A bounced message is copied to its target once the fault is served, then receipted. -/
  | bouncePlacement (id : Nat)
  /-- LAUTER_CONTRIBUTION (R236): The bank queues, folds or discards a contribution or abandonment to a cell. -/
  | lauterContribution (id : Nat)
  /-- HOST_NSIG (R280): Host command op 1: signals a name as nsig. -/
  | hostNsig (c slot : Nat)
  /-- HOST_NWAKE (R280): Host command op 2: sets a name's wake flag. -/
  | hostNwake (c slot : Nat)
  /-- HOST_NDEP (R280): Host command op 3: deposits a value, optionally signalling. -/
  | hostNdep (c slot : Nat)
  /-- HOST_TAKE (R280): Host command op 4: tests and takes the thread's own count without parking. -/
  | hostTake (c slot : Nat)
  /-- HOST_NRD (R280): Host command op 5: reads, optionally clears, an own deposit slot. -/
  | hostNrd (c slot : Nat)
  /-- HOST_WWAIT (R280): Host command op 6: compares and registers a host waiter in the wait table. -/
  | hostWwait (c slot : Nat)
  /-- HOST_WWAKE (R280): Host command op 7: releases waiters on an address. -/
  | hostWwake (c slot : Nat)
  /-- HOST_MPOST (R280): Host command op 8: posts a receive buffer for the host thread. -/
  | hostMpost (c slot : Nat)
  /-- HOST_MSTAT (R280): Host command op 9: removes the host thread's oldest receipt. -/
  | hostMstat (c slot : Nat)
  /-- HOST_PLACE (R281): Host command op 10: copies bytes into a warp's block partition or slot. -/
  | hostPlace (c slot : Nat)
  /-- CONTEXT_CREATE (R259): The driver names a context descriptor and the device creates the context. -/
  | contextCreate (c : Nat) (desc : DWord)
  /-- LAUNCH_QUEUE_CONFIG (R261): Firmware configures a launch queue's ring, priority and context. -/
  | launchQueueConfig (q : Nat) (base : DWord) (log2n prio c : Nat)
  /-- LAUNCH_RECORD_TAKE (R262): The launch unit takes the next record, refusing it if it breaks a limit. -/
  | launchRecordTake (q : Nat)
  /-- LAUNCH_DEPENDENCE_MET (R263): A head launch's dependence is met, as an acquire, and its blocks are offered. -/
  | launchDependenceMet (q : Nat)
  /-- BLOCK_ADMIT (R264): A block is admitted to a core and block start clears its partition and state. -/
  | blockAdmit (launch core : Nat)
  /-- BLOCK_SWAP (R271): Under WAITSHARE the launch unit saves a waiting block and starts or restores a ready one. -/
  | blockSwap (launch core : Nat)
  /-- PREEMPT_REQUEST (R286): A pre-emption request puts named blocks into DRAINING. -/
  | preemptRequest (c : Nat) (cores : List Nat) (free : Bool)
  /-- BLOCK_SAVE (R287): A block reaching a boundary is saved to its save-pool areas. -/
  | blockSave (core slot : Nat)
  /-- T1_EXPIRY (R286): At T1 remaining warps halt and are force-saved at their region entries. -/
  | t1Expiry (c : Nat)
  /-- T2_EXPIRY (R286): At T2 the context is reset to LOST. -/
  | t2Expiry (c : Nat)
  /-- BLOCK_RESTORE (R291): A saved block's records are written back, copies resume and waits re-test. -/
  | blockRestore (launch rank core : Nat)
  /-- MIGRATION_BEGIN (R277): The runtime migrates a block; its entries pass to TRANSIT. -/
  | migrationBegin (core slot dest : Nat)
  /-- TRANSIT_TIMEOUT (R277): After 2 µs without restore the entry reverts to SAVED and held operations resolve. -/
  | transitTimeout (name : DWord)
  /-- HOST_THREAD_REGISTER (R277): The driver registers a host thread, creating a HOST entry. -/
  | hostThreadRegister (c : Nat) (name wake : DWord)
  /-- HOST_THREAD_RETIRE (R277): The driver retires a host thread, making its entry DEAD. -/
  | hostThreadRetire (name : DWord)
  /-- NAME_FLUSH (R275): The management interface flushes cached name entries to memory. -/
  | nameFlush
  /-- HANDLER_ENTRY (R335): The handler warp starts on the core for a pending fault record. -/
  | handlerEntry (core : Nat)
  /-- DRAIN_WINDOW_EXPIRY (R197): 2 µs after drain, unfinished copies are cancelled and logged. -/
  | drainWindowExpiry (core : Nat)
  /-- FAULT_QUEUE_APPEND (R297): A fault record is written to the driver's fault queue once room exists. -/
  | faultQueueAppend
  /-- FAULT_RESUME_TOKEN (R297): The driver returns a resume token and the faulting agent retries. -/
  | faultResumeToken (token : DWord)
  /-- MGMT_REGISTER_WRITE (R297): Writes to management settings with no behaviour of their own, such as queue indices and areas. -/
  | mgmtRegisterWrite (r : MgmtReg) (idx : Nat) (v : DWord)
  /-- STREAM_CONFIGURE (R299): The driver configures a stream from its descriptor. -/
  | streamConfigure (n : Nat) (desc : DWord)
  /-- STREAM_UNBIND (R308): The driver unbinds a standing launch, which then completes. -/
  | streamUnbind (n : Nat)
  /-- SOURCE_IDLE_TIMEOUT (R303): A source silent beyond TIMEOUT goes IDLE and WM is recomputed. -/
  | sourceIdleTimeout (n src : Nat)
  /-- ACTIVATION_START (R309): The stream unit starts the next queued fire or amend activation of a stream. -/
  | activationStart (n : Nat)
  /-- CHECKPOINT_START (R345): A checkpoint descriptor is named and the freeze begins. -/
  | checkpointStart (desc : DWord)
  /-- CHECKPOINT_FREEZE (R346): Once all named blocks are saved, granules are frozen and blocks restored. -/
  | checkpointFreeze
  /-- FROZEN_GRANULE_WRITE (R347): A write to an unsent frozen granule waits or copies it to the reserve first. -/
  | frozenGranuleWrite (ordinal : Nat)
  /-- CHECKPOINT_GRANULE_SEND (R347): The drain sends a granule to a peer over the checkpoint class. -/
  | checkpointGranuleSend (ordinal : Nat)
  /-- CHECKPOINT_PEER_ACK (R347): A peer acknowledges a granule, which is unfrozen. -/
  | checkpointPeerAck (ordinal : Nat)
  /-- LINK_FLIT_REPLAY (R338): A flit failing its CRC is replayed from the link buffer. -/
  | linkFlitReplay (link : Nat)
  /-- LINK_DOWN (R338): A link replaying more than 64 flits in 1 ms is taken down. -/
  | linkDown (link : Nat)
  /-- INBOUND_FLIT (R339): An inbound flit is accepted or dropped by its partition key. -/
  | inboundFlit (key : Half) (src : Nat) (op : FlitOp)
  /-- FENCE_REVOKE (R340): A module's key is revoked and pending operations finish as ABSENT or cancelled. -/
  | fenceRevoke (module : Nat)
  /-- SPARE_POWER_UP (R343): The runtime powers the spare die up. -/
  | sparePowerUp
  /-- REHOME (R343): The runtime re-homes a failing die's logical cores onto the spare. -/
  | rehome (die : Nat)
  /-- DIE_OVERTEMP (R350): A die reaching 105 °C is powered down and its contexts lost. -/
  | dieOvertemp (die : Nat)
  /-- POWER_CAP_SET (R350): The host sets a power cap met by lowering the clock. -/
  | powerCapSet (watts : Nat)
  /-- ATTESTATION_REQUEST (R349): An SPDM request over DOE returns a signed attestation report. -/
  | attestationRequest (nonce : DWord)
  /-- BRING_UP (R342): At power-on the hubs verify firmware, train links, build the logical-core table and report ready. -/
  | bringUp (harvest : List (BitVec 36)) (spare : Nat)
  /-- CONTEXT_RESET (R340): The driver resets or releases a context through the management interface, ending its work and releasing its cellar range. -/
  | contextReset (c : Nat) (release : Bool)
  /-- SCRUBBING (R331): Background scrubbing repairs corrected single-bit errors in place and marks uncorrectable ones poisoned, logging kind 5. -/
  | scrubbing (u : ScrubUnit) (uncorrectable : Bool)
  /-- CLOCK_LOWERING (R350): The device lowers the main clock to keep die temperatures within limits, scaling cycle-counted durations. -/
  | clockLowering (units : Nat)
  /-- CXL_MEM_HOST_ACCESS (R348): A host thread reads or writes device memory through CXL.mem, for example a launch-queue TAIL or a parameter block. -/
  | cxlMemHostAccess (pa : Nat) (write : Option (List Byte))
  deriving DecidableEq, Repr

end Sys2Proof
end

