-- ==== Sys2Proof/Decode.lean ====
section
/-!
DEFINITION. Decoding of warp words (R43 to R58, 03_encoding.md, and the minor codes of 05_ref_compute.md,
06_ref_memory_flow.md and 07_ref_engines_system.md), of matrix words (R59, R60, R167), the encoder, and the
word spec/opcode_table.json numbers. A decoder answers an instruction or the cause code of R58 or R60.
-/
namespace Sys2Proof

/-- The field of `n` bits of a word whose lowest bit is `lo` (R4). -/
def fld (w : BitVec 32) (lo n : Nat) : BitVec n := w.extractLsb' lo n

/-- The instruction, when its must-be-zero bits are zero; the cause otherwise (R58). -/
def mbz (ok : Prop) [Decidable ok] (cause : Nat) (i : Instr) : Except Nat Instr :=
  if ok then .ok i else .error cause

/-- What a warp word decodes to: an instruction, or a cause with the instruction when only its must-be-zero bits are wrong. -/
abbrev Decoded := Except (Nat × Option Instr) Instr

/-- `mbz` for a warp word. -/
def mbzW (ok : Prop) [Decidable ok] (cause : Nat) (i : Instr) : Decoded :=
  if ok then .ok i else .error (cause, if cause = 4 then some i else none)

/-- Major 0x00 (R54). -/
def decodeMajor00 (w : BitVec 32) : Decoded :=
  mbzW (fld w 0 22 = 0#22) 4 (.nop)

/-- Major 0x01 (R54). -/
def decodeMajor01 (w : BitVec 32) : Decoded :=
  if fld w 3 4 = 7#4 then .ok (.ssel (fld w 15 7) (fld w 8 7) (fld w 7 1) (fld w 0 3))
  else match (fld w 0 7).toNat with
  | 0 => .ok (.sadd (fld w 15 7) (fld w 8 7) (fld w 7 1))
  | 1 => .ok (.ssub (fld w 15 7) (fld w 8 7) (fld w 7 1))
  | 2 => .ok (.smul (fld w 15 7) (fld w 8 7) (fld w 7 1))
  | 3 => mbzW (fld w 7 1 = 0#1) 3 (.smulhI32 (fld w 15 7) (fld w 8 7))
  | 4 => mbzW (fld w 7 1 = 0#1) 3 (.smulhN32 (fld w 15 7) (fld w 8 7))
  | 5 => mbzW (fld w 7 1 = 0#1) 3 (.sdivI32 (fld w 15 7) (fld w 8 7))
  | 6 => mbzW (fld w 7 1 = 0#1) 3 (.sdivN32 (fld w 15 7) (fld w 8 7))
  | 7 => mbzW (fld w 7 1 = 0#1) 3 (.sremI32 (fld w 15 7) (fld w 8 7))
  | 8 => mbzW (fld w 7 1 = 0#1) 3 (.sremN32 (fld w 15 7) (fld w 8 7))
  | 9 => .ok (.sminI (fld w 15 7) (fld w 8 7) (fld w 7 1))
  | 10 => .ok (.sminN (fld w 15 7) (fld w 8 7) (fld w 7 1))
  | 11 => .ok (.smaxI (fld w 15 7) (fld w 8 7) (fld w 7 1))
  | 12 => .ok (.smaxN (fld w 15 7) (fld w 8 7) (fld w 7 1))
  | 13 => .ok (.sand (fld w 15 7) (fld w 8 7) (fld w 7 1))
  | 14 => .ok (.sor (fld w 15 7) (fld w 8 7) (fld w 7 1))
  | 15 => .ok (.sxor (fld w 15 7) (fld w 8 7) (fld w 7 1))
  | 16 => .ok (.sandn (fld w 15 7) (fld w 8 7) (fld w 7 1))
  | 17 => .ok (.sshl (fld w 15 7) (fld w 8 7) (fld w 7 1))
  | 18 => .ok (.sshr (fld w 15 7) (fld w 8 7) (fld w 7 1))
  | 19 => .ok (.ssar (fld w 15 7) (fld w 8 7) (fld w 7 1))
  | 20 => .ok (.sbfe (fld w 15 7) (fld w 8 7) (fld w 7 1))
  | 21 => mbzW (fld w 7 1 = 0#1) 3 (.sbfi (fld w 15 7) (fld w 8 7))
  | 22 => .ok (.sclz (fld w 15 7) (fld w 8 7) (fld w 7 1))
  | 23 => .ok (.spopc (fld w 15 7) (fld w 8 7) (fld w 7 1))
  | 24 => .ok (.smov (fld w 15 7) (fld w 8 7) (fld w 7 1))
  | _ => .error (3, none)

/-- Major 0x02 (R54). -/
def decodeMajor02 (w : BitVec 32) : Decoded :=
  .ok (.saddi (fld w 15 7) (fld w 0 15))

/-- Major 0x03 (R54). -/
def decodeMajor03 (w : BitVec 32) : Decoded :=
  .ok (.smovi (fld w 15 7) (fld w 0 15))

/-- Major 0x04 (R54). -/
def decodeMajor04 (w : BitVec 32) : Decoded :=
  .ok (.smovh (fld w 15 7) (fld w 0 15))

/-- Major 0x05 (R54). -/
def decodeMajor05 (w : BitVec 32) : Decoded :=
  .ok (.scmp (fld w 19 3) (fld w 15 4) (fld w 8 7) (fld w 1 7) (fld w 0 1))

/-- Major 0x06 (R54). -/
def decodeMajor06 (w : BitVec 32) : Decoded :=
  if fld w 4 4 = 1#4 then mbzW (fld w 18 4 = 0#4 ∧ fld w 11 1 = 0#1) 4 (.plog (fld w 15 3) (fld w 12 3) (fld w 8 3) (fld w 0 4)) else
  if fld w 4 4 = 2#4 then mbzW (fld w 18 4 = 0#4 ∧ fld w 11 1 = 0#1) 4 (.plogM (fld w 15 3) (fld w 12 3) (fld w 8 3) (fld w 0 4)) else
  match (fld w 0 8).toNat with
  | 0 => .ok (.srd (fld w 15 7) (fld w 8 7))
  | 128 => .ok (.srdD (fld w 15 7) (fld w 8 7))
  | 3 => mbzW (fld w 8 7 = 0#7) 5 (.srdV (fld w 15 7))
  | 1 => .ok (.swr (fld w 15 7) (fld w 8 7))
  | 129 => .ok (.swrD (fld w 15 7) (fld w 8 7))
  | _ => .error (3, none)

/-- Major 0x07 (R54). -/
def decodeMajor07 (w : BitVec 32) : Decoded :=
  .ok (.scmpi (fld w 19 3) (fld w 15 4) (fld w 8 7) (fld w 1 7) (fld w 0 1))

/-- Major 0x08 (R54). -/
def decodeMajor08 (w : BitVec 32) : Decoded :=
  match (fld w 16 3).toNat with
  | 0 => .ok (.bra (fld w 19 3) (fld w 0 16))
  | 1 => .ok (.braNot (fld w 19 3) (fld w 0 16))
  | 2 => .ok (.brcAny (fld w 19 3) (fld w 0 16))
  | 3 => .ok (.brcAll (fld w 19 3) (fld w 0 16))
  | 4 => .ok (.brcNone (fld w 19 3) (fld w 0 16))
  | _ => .error (3, none)

/-- Major 0x09 (R54). -/
def decodeMajor09 (w : BitVec 32) : Decoded :=
  match (fld w 16 3).toNat with
  | 0 => .ok (.vbra (fld w 19 3) (fld w 0 16))
  | 1 => .ok (.vbraNot (fld w 19 3) (fld w 0 16))
  | _ => .error (3, none)

/-- Major 0x0A (R54). -/
def decodeMajor0A (w : BitVec 32) : Decoded :=
  match (fld w 16 3).toNat with
  | 0 => .ok (.call (fld w 19 3) (fld w 0 16))
  | _ => .error (3, none)

/-- Major 0x0B (R54). -/
def decodeMajor0B (w : BitVec 32) : Decoded :=
  match (fld w 16 6).toNat with
  | 0 => mbzW (fld w 0 7 = 0#7) 4 (.calli (fld w 10 6) (fld w 7 3))
  | 6 => mbzW (fld w 4 12 = 0#12) 4 (.leave (fld w 0 4))
  | 1 => mbzW (fld w 0 16 = 0#16) 4 (.ret)
  | 2 => mbzW (fld w 0 16 = 0#16) 4 (.exit)
  | 3 => mbzW (fld w 0 16 = 0#16) 4 (.region)
  | 4 => mbzW (fld w 0 16 = 0#16) 4 (.lhead)
  | 5 => mbzW (fld w 0 16 = 0#16) 4 (.reconv)
  | _ => .error (3, none)

/-- Major 0x0C (R54). -/
def decodeMajor0C (w : BitVec 32) : Decoded :=
  match (fld w 16 6).toNat with
  | 0 => mbzW (fld w 4 12 = 0#12) 4 (.arrive (fld w 0 4))
  | 1 => mbzW (fld w 4 9 = 0#9) 4 (.await (fld w 13 3) (fld w 0 4))
  | 2 => mbzW (fld w 4 9 = 0#9) 4 (.bsync (fld w 13 3) (fld w 0 4))
  | 3 => mbzW (fld w 4 4 = 0#4) 4 (.bmemb (fld w 15 1) (fld w 8 7) (fld w 0 4))
  | 4 => mbzW (fld w 2 14 = 0#14) 4 (.cbarrive (fld w 0 2))
  | 5 => mbzW (fld w 2 11 = 0#11) 4 (.cbawait (fld w 13 3) (fld w 0 2))
  | _ => .error (3, none)

/-- Major 0x0D (R54). -/
def decodeMajor0D (w : BitVec 32) : Decoded :=
  match (fld w 16 6).toNat with
  | 0 => mbzW (fld w 6 8 = 0#8) 4 (.waitc (fld w 14 2) (fld w 0 6))
  | 1 => .ok (.sigck (fld w 0 16))
  | _ => .error (3, none)

/-- Major 0x0E (R54). -/
def decodeMajor0E (w : BitVec 32) : Decoded :=
  match (fld w 11 4).toNat with
  | 0 => mbzW (fld w 0 10 = 0#10) 4 (.jtake (fld w 15 7) (fld w 10 1))
  | 1 => mbzW (fld w 0 11 = 0#11) 4 (.jspawn (fld w 15 7))
  | 2 => mbzW (fld w 0 8 = 0#8) 4 (.jpop (fld w 15 7) (fld w 8 3))
  | 3 => mbzW (fld w 0 11 = 0#11) 4 (.jsteal (fld w 15 7))
  | 4 => mbzW (fld w 15 7 = 0#7 ∧ fld w 0 2 = 0#2) 4 (.lrefill (fld w 5 6) (fld w 2 3))
  | _ => .error (3, none)

/-- Major 0x10 (R54). -/
def decodeMajor10 (w : BitVec 32) : Decoded :=
  match (fld w 0 4).toNat with
  | 0 => .ok (.vadd (fld w 16 6) (fld w 10 6) (fld w 4 6))
  | 1 => .ok (.vsub (fld w 16 6) (fld w 10 6) (fld w 4 6))
  | 2 => .ok (.vmul (fld w 16 6) (fld w 10 6) (fld w 4 6))
  | 3 => .ok (.vmulhI32 (fld w 16 6) (fld w 10 6) (fld w 4 6))
  | 4 => .ok (.vmulhN32 (fld w 16 6) (fld w 10 6) (fld w 4 6))
  | 5 => .ok (.vmad (fld w 16 6) (fld w 10 6) (fld w 4 6))
  | 6 => .ok (.vabsdI32 (fld w 16 6) (fld w 10 6) (fld w 4 6))
  | 7 => .ok (.vand (fld w 16 6) (fld w 10 6) (fld w 4 6))
  | 8 => .ok (.vor (fld w 16 6) (fld w 10 6) (fld w 4 6))
  | 9 => .ok (.vxor (fld w 16 6) (fld w 10 6) (fld w 4 6))
  | 10 => .ok (.vandn (fld w 16 6) (fld w 10 6) (fld w 4 6))
  | 11 => .ok (.vshl (fld w 16 6) (fld w 10 6) (fld w 4 6))
  | 12 => .ok (.vshr (fld w 16 6) (fld w 10 6) (fld w 4 6))
  | 13 => .ok (.vsar (fld w 16 6) (fld w 10 6) (fld w 4 6))
  | 14 => mbzW (fld w 4 6 = 0#6) 4 (.vclz (fld w 16 6) (fld w 10 6))
  | _ => mbzW (fld w 4 6 = 0#6) 4 (.vpopc (fld w 16 6) (fld w 10 6))

/-- Major 0x11 (R54). -/
def decodeMajor11 (w : BitVec 32) : Decoded :=
  .ok (.vaddi (fld w 16 6) (fld w 10 6) (fld w 0 10))

/-- Major 0x12 (R54). -/
def decodeMajor12 (w : BitVec 32) : Decoded :=
  match (fld w 15 1).toNat with
  | 0 => .ok (.vmovi (fld w 16 6) (fld w 0 15))
  | _ => .ok (.vmovh (fld w 16 6) (fld w 0 15))

/-- Major 0x13 (R54). -/
def decodeMajor13 (w : BitVec 32) : Decoded :=
  match (fld w 0 4).toNat with
  | 0 => .ok (.vaddH2 (fld w 16 6) (fld w 10 6) (fld w 4 6))
  | 1 => .ok (.vaddsH2 (fld w 16 6) (fld w 10 6) (fld w 4 6))
  | 2 => .ok (.vsubH2 (fld w 16 6) (fld w 10 6) (fld w 4 6))
  | 3 => .ok (.vsubsH2 (fld w 16 6) (fld w 10 6) (fld w 4 6))
  | 4 => .ok (.vminH2 (fld w 16 6) (fld w 10 6) (fld w 4 6))
  | 5 => .ok (.vmaxH2 (fld w 16 6) (fld w 10 6) (fld w 4 6))
  | 6 => .ok (.vacsH2 (fld w 16 6) (fld w 10 6) (fld w 4 6))
  | _ => .error (3, none)

/-- Major 0x14 (R54). -/
def decodeMajor14 (w : BitVec 32) : Decoded :=
  match (fld w 0 4).toNat with
  | 0 => .ok (.vaddB4 (fld w 16 6) (fld w 10 6) (fld w 4 6))
  | 1 => .ok (.vaddsB4 (fld w 16 6) (fld w 10 6) (fld w 4 6))
  | 2 => .ok (.vminB4 (fld w 16 6) (fld w 10 6) (fld w 4 6))
  | 3 => .ok (.vmaxB4 (fld w 16 6) (fld w 10 6) (fld w 4 6))
  | 4 => .ok (.vabsdB4 (fld w 16 6) (fld w 10 6) (fld w 4 6))
  | _ => .error (3, none)

/-- Major 0x15 (R54). -/
def decodeMajor15 (w : BitVec 32) : Decoded :=
  match (fld w 3 1).toNat with
  | 0 => .ok (.vdot4 (fld w 16 6) (fld w 10 6) (fld w 4 6) (fld w 2 1) (fld w 1 1) (fld w 0 1))
  | _ => .ok (.vdot8 (fld w 16 6) (fld w 10 6) (fld w 4 6) (fld w 2 1) (fld w 1 1) (fld w 0 1))

/-- Major 0x16 (R54). -/
def decodeMajor16 (w : BitVec 32) : Decoded :=
  match (fld w 0 4).toNat with
  | 0 => mbzW (fld w 19 3 = 0#3) 4 (.vcmpEqI32 (fld w 16 3) (fld w 10 6) (fld w 4 6))
  | 1 => mbzW (fld w 19 3 = 0#3) 4 (.vcmpNeI32 (fld w 16 3) (fld w 10 6) (fld w 4 6))
  | 2 => mbzW (fld w 19 3 = 0#3) 4 (.vcmpLtI32 (fld w 16 3) (fld w 10 6) (fld w 4 6))
  | 3 => mbzW (fld w 19 3 = 0#3) 4 (.vcmpLeI32 (fld w 16 3) (fld w 10 6) (fld w 4 6))
  | 4 => mbzW (fld w 19 3 = 0#3) 4 (.vcmpLtN32 (fld w 16 3) (fld w 10 6) (fld w 4 6))
  | 5 => mbzW (fld w 19 3 = 0#3) 4 (.vcmpLeN32 (fld w 16 3) (fld w 10 6) (fld w 4 6))
  | 6 => .ok (.vsel (fld w 16 6) (fld w 10 6) (fld w 4 6))
  | 7 => mbzW (fld w 4 6 = 0#6) 4 (.vmov (fld w 16 6) (fld w 10 6))
  | 8 => mbzW (fld w 9 1 = 0#1) 4 (.vbcast (fld w 16 6) (fld w 10 6) (fld w 4 5))
  | 9 => .ok (.vminI32 (fld w 16 6) (fld w 10 6) (fld w 4 6))
  | 10 => .ok (.vminN32 (fld w 16 6) (fld w 10 6) (fld w 4 6))
  | 11 => .ok (.vmaxI32 (fld w 16 6) (fld w 10 6) (fld w 4 6))
  | 12 => .ok (.vmaxN32 (fld w 16 6) (fld w 10 6) (fld w 4 6))
  | _ => .error (3, none)

/-- Major 0x17 (R54). -/
def decodeMajor17 (w : BitVec 32) : Decoded :=
  match (fld w 0 3).toNat with
  | 0 => .ok (.vbfe (fld w 16 6) (fld w 10 6) (fld w 3 7))
  | 1 => .ok (.vbfi (fld w 16 6) (fld w 10 6) (fld w 3 7))
  | 2 => .ok (.vpackH2 (fld w 16 6) (fld w 10 6) (fld w 3 7))
  | 3 => .ok (.vpackB4 (fld w 16 6) (fld w 10 6) (fld w 3 7))
  | 4 => mbzW (fld w 3 7 = 0#7) 4 (.vunpackI16 (fld w 16 6) (fld w 10 6))
  | 5 => mbzW (fld w 3 7 = 0#7) 4 (.vunpackN16 (fld w 16 6) (fld w 10 6))
  | 6 => mbzW (fld w 3 7 = 0#7) 4 (.vunpackI8 (fld w 16 6) (fld w 10 6))
  | _ => mbzW (fld w 3 7 = 0#7) 4 (.vunpackN8 (fld w 16 6) (fld w 10 6))

/-- Major 0x18 (R54). -/
def decodeMajor18 (w : BitVec 32) : Decoded :=
  match (fld w 0 4).toNat with
  | 0 => .ok (.vfaddF32 (fld w 16 6) (fld w 10 6) (fld w 4 6))
  | 1 => .ok (.vfsubF32 (fld w 16 6) (fld w 10 6) (fld w 4 6))
  | 2 => .ok (.vfmulF32 (fld w 16 6) (fld w 10 6) (fld w 4 6))
  | 3 => .ok (.vfminF32 (fld w 16 6) (fld w 10 6) (fld w 4 6))
  | 4 => .ok (.vfmaxF32 (fld w 16 6) (fld w 10 6) (fld w 4 6))
  | 5 => mbzW (fld w 4 6 = 0#6) 4 (.vfabsF32 (fld w 16 6) (fld w 10 6))
  | 6 => mbzW (fld w 4 6 = 0#6) 4 (.vfnegF32 (fld w 16 6) (fld w 10 6))
  | 7 => .ok (.vfcsgnF32 (fld w 16 6) (fld w 10 6) (fld w 4 6))
  | _ => .error (3, none)

/-- Major 0x19 (R54). -/
def decodeMajor19 (w : BitVec 32) : Decoded :=
  if fld w 2 2 = 3#2 then .error (3, none) else
  match (fld w 0 2).toNat with
  | 0 => .ok (.vffma (fld w 16 6) (fld w 10 6) (fld w 4 6) (fld w 2 2))
  | 1 => .ok (.vffms (fld w 16 6) (fld w 10 6) (fld w 4 6) (fld w 2 2))
  | 2 => .ok (.vfnma (fld w 16 6) (fld w 10 6) (fld w 4 6) (fld w 2 2))
  | _ => .error (3, none)

/-- Major 0x1A (R54). -/
def decodeMajor1A (w : BitVec 32) : Decoded :=
  match (fld w 0 4).toNat with
  | 0 => .ok (.vfaddH2 (fld w 16 6) (fld w 10 6) (fld w 4 6))
  | 1 => .ok (.vfsubH2 (fld w 16 6) (fld w 10 6) (fld w 4 6))
  | 2 => .ok (.vfmulH2 (fld w 16 6) (fld w 10 6) (fld w 4 6))
  | 3 => .ok (.vfminH2 (fld w 16 6) (fld w 10 6) (fld w 4 6))
  | 4 => .ok (.vfmaxH2 (fld w 16 6) (fld w 10 6) (fld w 4 6))
  | 5 => mbzW (fld w 4 6 = 0#6) 4 (.vfabsH2 (fld w 16 6) (fld w 10 6))
  | 6 => mbzW (fld w 4 6 = 0#6) 4 (.vfnegH2 (fld w 16 6) (fld w 10 6))
  | 7 => .ok (.vfcsgnH2 (fld w 16 6) (fld w 10 6) (fld w 4 6))
  | _ => .error (3, none)

/-- Major 0x1B (R54). -/
def decodeMajor1B (w : BitVec 32) : Decoded :=
  match (fld w 0 4).toNat with
  | 0 => .ok (.vfaddBf2 (fld w 16 6) (fld w 10 6) (fld w 4 6))
  | 1 => .ok (.vfsubBf2 (fld w 16 6) (fld w 10 6) (fld w 4 6))
  | 2 => .ok (.vfmulBf2 (fld w 16 6) (fld w 10 6) (fld w 4 6))
  | 3 => .ok (.vfminBf2 (fld w 16 6) (fld w 10 6) (fld w 4 6))
  | 4 => .ok (.vfmaxBf2 (fld w 16 6) (fld w 10 6) (fld w 4 6))
  | 5 => mbzW (fld w 4 6 = 0#6) 4 (.vfabsBf2 (fld w 16 6) (fld w 10 6))
  | 6 => mbzW (fld w 4 6 = 0#6) 4 (.vfnegBf2 (fld w 16 6) (fld w 10 6))
  | 7 => .ok (.vfcsgnBf2 (fld w 16 6) (fld w 10 6) (fld w 4 6))
  | _ => .error (3, none)

/-- Major 0x1C (R54). -/
def decodeMajor1C (w : BitVec 32) : Decoded :=
  .ok (.vcvt (fld w 16 6) (fld w 10 6) (fld w 6 4) (fld w 2 4) (fld w 0 2))

/-- Major 0x1D (R54). -/
def decodeMajor1D (w : BitVec 32) : Decoded :=
  match (fld w 0 4).toNat with
  | 0 => mbzW (fld w 4 6 = 0#6) 4 (.vfrcp (fld w 16 6) (fld w 10 6))
  | 1 => mbzW (fld w 4 6 = 0#6) 4 (.vfrsq (fld w 16 6) (fld w 10 6))
  | 2 => mbzW (fld w 4 6 = 0#6) 4 (.vfsqrt (fld w 16 6) (fld w 10 6))
  | 3 => mbzW (fld w 4 6 = 0#6) 4 (.vfexp2 (fld w 16 6) (fld w 10 6))
  | 4 => mbzW (fld w 4 6 = 0#6) 4 (.vflog2 (fld w 16 6) (fld w 10 6))
  | 5 => mbzW (fld w 4 6 = 0#6) 4 (.vfsin (fld w 16 6) (fld w 10 6))
  | 6 => mbzW (fld w 4 6 = 0#6) 4 (.vfcos (fld w 16 6) (fld w 10 6))
  | 7 => mbzW (fld w 4 6 = 0#6) 4 (.vftanh (fld w 16 6) (fld w 10 6))
  | 8 => mbzW (fld w 4 6 = 0#6) 4 (.vfsigm (fld w 16 6) (fld w 10 6))
  | _ => .error (3, none)

/-- Major 0x1E (R54). -/
def decodeMajor1E (w : BitVec 32) : Decoded :=
  match (fld w 2 2).toNat with
  | 0 => mbzW (fld w 19 3 = 0#3) 4 (.vfcmpF32 (fld w 16 3) (fld w 10 6) (fld w 4 6) (fld w 0 2))
  | 3 => .error (3, none)
  | _ => .ok (.vfcmpPacked (fld w 16 6) (fld w 10 6) (fld w 4 6) (fld w 2 2) (fld w 0 2))

/-- Major 0x1F (R54). -/
def decodeMajor1F (w : BitVec 32) : Decoded :=
  match (fld w 0 3).toNat with
  | 0 => mbzW (fld w 3 7 = 0#7) 4 (.vhad (fld w 16 6) (fld w 10 6))
  | 1 => .ok (.vkflip (fld w 16 6) (fld w 10 6) (fld w 3 7))
  | 2 => mbzW (fld w 3 7 = 0#7) 4 (.vamax (fld w 16 6) (fld w 10 6))
  | 3 => .ok (.vqmx (fld w 16 6) (fld w 10 6) (fld w 3 7))
  | 4 => .ok (.vdqmx (fld w 16 6) (fld w 10 6) (fld w 3 7))
  | _ => .error (3, none)

/-- Major 0x20 (R54). -/
def decodeMajor20 (w : BitVec 32) : Decoded :=
  match (fld w 0 4).toNat with
  | 0 => .ok (.vshflIdx (fld w 16 6) (fld w 10 6) (fld w 4 6))
  | 1 => mbzW (fld w 9 1 = 0#1) 4 (.vshflXor (fld w 16 6) (fld w 10 6) (fld w 4 5))
  | 2 => mbzW (fld w 9 1 = 0#1) 4 (.vshflUp (fld w 16 6) (fld w 10 6) (fld w 4 5))
  | 3 => mbzW (fld w 9 1 = 0#1) 4 (.vshflDn (fld w 16 6) (fld w 10 6) (fld w 4 5))
  | 4 => .ok (.vshflIdxH2 (fld w 16 6) (fld w 10 6) (fld w 4 6))
  | _ => .error (3, none)

/-- Major 0x21 (R54). -/
def decodeMajor21 (w : BitVec 32) : Decoded :=
  match (fld w 0 4).toNat with
  | 0 => mbzW (fld w 4 6 = 0#6) 4 (.vmatch (fld w 16 6) (fld w 10 6))
  | 1 => mbzW (fld w 4 6 = 0#6) 4 (.vmatchNum (fld w 16 6) (fld w 10 6))
  | 2 => mbzW (fld w 4 6 = 0#6) 4 (.vballot (fld w 16 6) (fld w 10 6))
  | 3 => mbzW (fld w 4 12 = 0#12) 4 (.vlaneid (fld w 16 6))
  | _ => .error (3, none)

/-- Major 0x22 (R54). -/
def decodeMajor22 (w : BitVec 32) : Decoded :=
  match (fld w 0 4).toNat with
  | 0 => mbzW (fld w 4 6 = 0#6) 4 (.vredsumI32 (fld w 16 6) (fld w 10 6))
  | 1 => mbzW (fld w 4 6 = 0#6) 4 (.vredsumF32 (fld w 16 6) (fld w 10 6))
  | 2 => mbzW (fld w 4 6 = 0#6) 4 (.vredmaxI32 (fld w 16 6) (fld w 10 6))
  | 3 => mbzW (fld w 4 6 = 0#6) 4 (.vredmaxN32 (fld w 16 6) (fld w 10 6))
  | 4 => mbzW (fld w 4 6 = 0#6) 4 (.vredmaxF32 (fld w 16 6) (fld w 10 6))
  | 5 => mbzW (fld w 4 6 = 0#6) 4 (.vredminI32 (fld w 16 6) (fld w 10 6))
  | 6 => mbzW (fld w 4 6 = 0#6) 4 (.vredminN32 (fld w 16 6) (fld w 10 6))
  | 7 => mbzW (fld w 4 6 = 0#6) 4 (.vredminF32 (fld w 16 6) (fld w 10 6))
  | 8 => mbzW (fld w 4 6 = 0#6) 4 (.vscanI32 (fld w 16 6) (fld w 10 6))
  | 9 => mbzW (fld w 4 6 = 0#6) 4 (.vscanF32 (fld w 16 6) (fld w 10 6))
  | 10 => mbzW (fld w 4 6 = 0#6) 4 (.vscanExI32 (fld w 16 6) (fld w 10 6))
  | 11 => mbzW (fld w 4 6 = 0#6) 4 (.vscanExF32 (fld w 16 6) (fld w 10 6))
  | _ => .error (3, none)

/-- Major 0x23 (R54). -/
def decodeMajor23 (w : BitVec 32) : Decoded :=
  match (fld w 0 3).toNat with
  | 0 => .ok (.vrdl (fld w 16 6) (fld w 10 6) (fld w 3 7))
  | 1 => mbzW (fld w 10 6 = 0#6) 4 (.vwrl (fld w 16 6) (fld w 3 7))
  | 2 => .ok (.vrdlD (fld w 16 6) (fld w 10 6) (fld w 3 7))
  | 3 => mbzW (fld w 10 6 = 0#6) 4 (.vwrlD (fld w 16 6) (fld w 3 7))
  | _ => .error (3, none)

/-- Major 0x24 (R54). -/
def decodeMajor24 (w : BitVec 32) : Decoded :=
  .ok (.vld (fld w 16 6) (fld w 10 6) (fld w 8 2) (fld w 6 2) (fld w 4 2) (fld w 0 4))

/-- Major 0x25 (R54). -/
def decodeMajor25 (w : BitVec 32) : Decoded :=
  .ok (.vst (fld w 16 6) (fld w 10 6) (fld w 8 2) (fld w 6 2) (fld w 4 2) (fld w 0 4))

/-- Major 0x26 (R54). -/
def decodeMajor26 (w : BitVec 32) : Decoded :=
  .ok (.sld (fld w 16 6) (fld w 10 6) (fld w 8 2) (fld w 6 2) (fld w 4 2) (fld w 0 4))

/-- Major 0x27 (R54). -/
def decodeMajor27 (w : BitVec 32) : Decoded :=
  .ok (.sst (fld w 16 6) (fld w 10 6) (fld w 8 2) (fld w 6 2) (fld w 4 2) (fld w 0 4))

/-- Major 0x28 (R54). -/
def decodeMajor28 (w : BitVec 32) : Decoded :=
  if fld w 9 1 = 0#1 then mbzW (fld w 2 2 = 0#2) 4 (.vgld (fld w 16 6) (fld w 10 6) (fld w 8 1) (fld w 6 2) (fld w 4 2) (fld w 0 2))
  else .error (3, some (.vgld (fld w 16 6) (fld w 10 6) (fld w 8 1) (fld w 6 2) (fld w 4 2) (fld w 0 2)))

/-- Major 0x29 (R54). -/
def decodeMajor29 (w : BitVec 32) : Decoded :=
  if fld w 9 1 = 0#1 then mbzW (fld w 2 2 = 0#2) 4 (.vgst (fld w 16 6) (fld w 10 6) (fld w 8 1) (fld w 6 2) (fld w 4 2) (fld w 0 2))
  else .error (3, some (.vgst (fld w 16 6) (fld w 10 6) (fld w 8 1) (fld w 6 2) (fld w 4 2) (fld w 0 2)))

/-- Major 0x2A (R54). -/
def decodeMajor2A (w : BitVec 32) : Decoded :=
  .ok (.vatom (fld w 16 6) (fld w 10 6) (fld w 7 3) (fld w 5 2) (fld w 2 3) (fld w 0 2))

/-- Major 0x2B (R54). -/
def decodeMajor2B (w : BitVec 32) : Decoded :=
  match (fld w 8 2).toNat with
  | 0 => .ok (.catom (fld w 16 6) (fld w 10 6) (fld w 5 3) (fld w 3 2) (fld w 2 1) (fld w 0 2))
  | 1 => mbzW (fld w 0 1 = 0#1) 4 (.cfaddo (fld w 16 6) (fld w 10 6) (fld w 1 7))
  | 2 => mbzW (fld w 0 5 = 0#5) 4 (.cline (fld w 16 6) (fld w 10 6) (fld w 5 3))
  | _ => mbzW (fld w 16 6 = 0#6 ∧ fld w 0 1 = 0#1) 4 (.cabandon (fld w 10 6) (fld w 1 7))

/-- Major 0x2C (R54). -/
def decodeMajor2C (w : BitVec 32) : Decoded :=
  match (fld w 16 6).toNat with
  | 0 => mbzW (fld w 0 11 = 0#11) 4 (.fence (fld w 14 2) (fld w 11 3))
  | _ => .error (3, none)

/-- Major 0x2D (R54). -/
def decodeMajor2D (w : BitVec 32) : Decoded :=
  match (fld w 0 1).toNat with
  | 0 => .ok (.accrd (fld w 16 6) (fld w 6 10) (fld w 1 5))
  | _ => .ok (.accwr (fld w 16 6) (fld w 6 10) (fld w 1 5))

/-- Major 0x30 (R54). -/
def decodeMajor30 (w : BitVec 32) : Decoded :=
  match (fld w 11 4).toNat with
  | 0 => mbzW (fld w 0 7 = 0#7) 4 (.cpy (fld w 15 7) (fld w 10 1) (fld w 9 1) (fld w 7 2))
  | 1 => mbzW (fld w 0 11 = 0#11) 4 (.cpyo (fld w 15 7))
  | 2 => mbzW (fld w 0 11 = 0#11) 4 (.cpyr (fld w 15 7))
  | 3 => mbzW (fld w 0 11 = 0#11) 4 (.cpyp (fld w 15 7))
  | _ => .error (3, none)

/-- Major 0x31 (R54). -/
def decodeMajor31 (w : BitVec 32) : Decoded :=
  match (fld w 11 4).toNat with
  | 0 => mbzW (fld w 0 11 = 0#11) 4 (.oclaim (fld w 15 7))
  | 1 => mbzW (fld w 0 10 = 0#10) 4 (.orel (fld w 15 7) (fld w 10 1))
  | 2 => mbzW (fld w 0 11 = 0#11) 4 (.ohdr (fld w 15 7))
  | 3 => mbzW (fld w 0 5 = 0#5) 4 (.ofill (fld w 15 7) (fld w 5 6))
  | _ => .error (3, none)

/-- Major 0x32 (R54). -/
def decodeMajor32 (w : BitVec 32) : Decoded :=
  match (fld w 11 4).toNat with
  | 0 => mbzW (fld w 0 10 = 0#10) 4 (.nsig (fld w 15 7) (fld w 10 1))
  | 1 => mbzW (fld w 0 10 = 0#10) 4 (.nwake (fld w 15 7) (fld w 10 1))
  | 2 => mbzW (fld w 0 8 = 0#8) 4 (.ndep (fld w 15 7) (fld w 9 2) (fld w 8 1))
  | 3 => mbzW (fld w 0 8 = 0#8) 4 (.nrd (fld w 15 7) (fld w 9 2) (fld w 8 1))
  | 4 => mbzW (fld w 0 11 = 0#11) 4 (.njoin (fld w 15 7))
  | 5 => mbzW (fld w 0 10 = 0#10) 4 (.nwait (fld w 15 7) (fld w 10 1))
  | 6 => mbzW (fld w 0 11 = 0#11) 4 (.nself (fld w 15 7))
  | _ => .error (3, none)

/-- Major 0x33 (R54). -/
def decodeMajor33 (w : BitVec 32) : Decoded :=
  match (fld w 11 4).toNat with
  | 0 => mbzW (fld w 0 10 = 0#10) 4 (.wwait (fld w 15 7) (fld w 10 1))
  | 1 => mbzW (fld w 0 11 = 0#11) 4 (.wwake (fld w 15 7))
  | _ => .error (3, none)

/-- Major 0x34 (R54). -/
def decodeMajor34 (w : BitVec 32) : Decoded :=
  match (fld w 11 4).toNat with
  | 0 => mbzW (fld w 0 5 = 0#5) 4 (.srec (fld w 15 7) (fld w 5 6))
  | 1 => mbzW (fld w 0 11 = 0#11) 4 (.swm (fld w 15 7))
  | 2 => mbzW (fld w 0 11 = 0#11) 4 (.sidle (fld w 15 7))
  | 3 => if fld w 10 1 = 1#1 then mbzW (fld w 0 4 = 0#4) 4 (.swinL (fld w 15 7) (fld w 4 6)) else mbzW (fld w 0 10 = 0#10) 4 (.swin (fld w 15 7))
  | 4 => mbzW (fld w 0 11 = 0#11) 4 (.spub (fld w 15 7))
  | 5 => mbzW (fld w 0 11 = 0#11) 4 (.samend (fld w 15 7))
  | 6 => mbzW (fld w 0 11 = 0#11) 4 (.sdone (fld w 15 7))
  | _ => .error (3, none)

/-- Major 0x35 (R54). -/
def decodeMajor35 (w : BitVec 32) : Decoded :=
  match (fld w 11 4).toNat with
  | 0 => mbzW (fld w 0 11 = 0#11) 4 (.mpost (fld w 15 7))
  | 1 => mbzW (fld w 0 11 = 0#11) 4 (.msend (fld w 15 7))
  | 2 => mbzW (fld w 0 8 = 0#8) 4 (.mstat (fld w 15 7) (fld w 8 3))
  | 3 => mbzW (fld w 0 9 = 0#9) 4 (.fsreq (fld w 15 7) (fld w 9 2))
  | _ => .error (3, none)

/-- Major 0x38 (R54). -/
def decodeMajor38 (w : BitVec 32) : Decoded :=
  match (fld w 16 6).toNat with
  | 0 => .ok (.trap (fld w 0 16))
  | 1 => .ok (.brk (fld w 0 16))
  | _ => .error (3, none)

/-- Major 0x39 (R54). -/
def decodeMajor39 (w : BitVec 32) : Decoded :=
  match (fld w 16 6).toNat with
  | 2 => mbzW (fld w 0 2 = 0#2) 4 (.drain (fld w 9 7) (fld w 2 7))
  | 3 => .ok (.wsnap (fld w 9 7) (fld w 2 7) (fld w 0 2))
  | 4 => .ok (.accspl (fld w 10 6) (fld w 0 10))
  | 5 => .ok (.accfil (fld w 10 6) (fld w 0 10))
  | 6 => mbzW (fld w 0 6 = 0#6) 4 (.mapset (fld w 9 7) (fld w 6 3))
  | 7 => mbzW (fld w 0 6 = 0#6) 4 (.tlbinv (fld w 9 7) (fld w 6 3))
  | 0 => mbzW (fld w 0 16 = 0#16) 4 (.rte)
  | 1 => mbzW (fld w 0 16 = 0#16) 4 (.hbcast)
  | _ => .error (3, none)

/-- Major 0x3A (R54). -/
def decodeMajor3A (w : BitVec 32) : Decoded :=
  match (fld w 0 8).toNat with
  | 0 => .ok (.psrd (fld w 15 7) (fld w 8 7))
  | 128 => .ok (.psrdD (fld w 15 7) (fld w 8 7))
  | 1 => .ok (.pswr (fld w 15 7) (fld w 8 7))
  | 129 => .ok (.pswrD (fld w 15 7) (fld w 8 7))
  | _ => .error (3, none)

/-- Major 0x3C (R54). -/
def decodeMajor3C (w : BitVec 32) : Decoded :=
  mbzW (fld w 0 3 = 0#3) 4 (.pfx (fld w 19 3) (fld w 18 1) (fld w 15 3) (fld w 9 6) (fld w 6 3) (fld w 3 3))

/-- The major of a warp word (R43). -/
def majorOf (w : BitVec 32) : Nat := (fld w 22 6).toNat

/-- The chain bit and the stall count (R43). -/
def headerOf (w : BitVec 32) : Header := { cb := fld w 31 1 = 1#1, stall := fld w 28 3 }

/-- The decoder of warp words, with the instruction whose must-be-zero bits are not zero. -/
def decodeFull (w : BitVec 32) : Decoded :=
  match majorOf w with
  | 0x00 => decodeMajor00 w
  | 0x01 => decodeMajor01 w
  | 0x02 => decodeMajor02 w
  | 0x03 => decodeMajor03 w
  | 0x04 => decodeMajor04 w
  | 0x05 => decodeMajor05 w
  | 0x06 => decodeMajor06 w
  | 0x07 => decodeMajor07 w
  | 0x08 => decodeMajor08 w
  | 0x09 => decodeMajor09 w
  | 0x0A => decodeMajor0A w
  | 0x0B => decodeMajor0B w
  | 0x0C => decodeMajor0C w
  | 0x0D => decodeMajor0D w
  | 0x0E => decodeMajor0E w
  | 0x10 => decodeMajor10 w
  | 0x11 => decodeMajor11 w
  | 0x12 => decodeMajor12 w
  | 0x13 => decodeMajor13 w
  | 0x14 => decodeMajor14 w
  | 0x15 => decodeMajor15 w
  | 0x16 => decodeMajor16 w
  | 0x17 => decodeMajor17 w
  | 0x18 => decodeMajor18 w
  | 0x19 => decodeMajor19 w
  | 0x1A => decodeMajor1A w
  | 0x1B => decodeMajor1B w
  | 0x1C => decodeMajor1C w
  | 0x1D => decodeMajor1D w
  | 0x1E => decodeMajor1E w
  | 0x1F => decodeMajor1F w
  | 0x20 => decodeMajor20 w
  | 0x21 => decodeMajor21 w
  | 0x22 => decodeMajor22 w
  | 0x23 => decodeMajor23 w
  | 0x24 => decodeMajor24 w
  | 0x25 => decodeMajor25 w
  | 0x26 => decodeMajor26 w
  | 0x27 => decodeMajor27 w
  | 0x28 => decodeMajor28 w
  | 0x29 => decodeMajor29 w
  | 0x2A => decodeMajor2A w
  | 0x2B => decodeMajor2B w
  | 0x2C => decodeMajor2C w
  | 0x2D => decodeMajor2D w
  | 0x30 => decodeMajor30 w
  | 0x31 => decodeMajor31 w
  | 0x32 => decodeMajor32 w
  | 0x33 => decodeMajor33 w
  | 0x34 => decodeMajor34 w
  | 0x35 => decodeMajor35 w
  | 0x38 => decodeMajor38 w
  | 0x39 => decodeMajor39 w
  | 0x3A => decodeMajor3A w
  | 0x3C => decodeMajor3C w
  | _ => .error (1, none)

/-- The decoder of warp words: the instruction, or the lowest cause of R58 that its own word gives. -/
def decodeWord (w : BitVec 32) : Except Nat Instr :=
  match decodeFull w with
  | .ok i => .ok i
  | .error e => .error e.1

/-- The decoder of matrix words: the instruction, or cause 1 or 4 of R60. It is marked noncomputable because
the compiler builds no constructor numbered above 244 that has fields; the kernel evaluates it. -/
noncomputable def decodeMatrix (w : BitVec 32) : Except Nat Instr :=
  match (fld w 26 6).toNat with
  | 0 => mbz (fld w 0 26 = 0#26) 4 (.mnop)
  | 1 => .ok (.mmac (fld w 16 10) (fld w 8 8) (fld w 0 8))
  | 2 => .ok (.mmact (fld w 16 10) (fld w 8 8) (fld w 0 8))
  | 3 => mbz (fld w 0 15 = 0#15) 4 (.mzero (fld w 16 10) (fld w 15 1))
  | 4 => mbz (fld w 17 9 = 0#9 ∧ (fld w 16 1 = 1#1 ∨ fld w 0 8 = 0#8)) 4 (.mrel (fld w 16 1) (fld w 8 8) (fld w 0 8))
  | 5 => mbz (fld w 4 22 = 0#22) 4 (.mbara (fld w 0 4))
  | 6 => mbz (fld w 4 22 = 0#22) 4 (.mbarw (fld w 0 4))
  | 7 => if fld w 22 1 = 1#1 then mbz (fld w 23 3 = 0#3 ∧ fld w 1 21 = 0#21) 4 (.msetMode (fld w 0 1))
    else mbz (fld w 16 6 = 0#6) 4 (.mset (fld w 23 3) (fld w 0 16))
  | 8 => mbz (fld w 0 23 = 0#23) 4 (.mdec (fld w 23 3))
  | 9 => .ok (.mbnz (fld w 23 3) (fld w 0 23))
  | 10 => match (fld w 23 3).toNat with
    | 0 => .ok (.mbstAb (fld w 0 23))
    | 1 => .ok (.mbstNab (fld w 0 23))
    | _ => .error 1
  | 11 => mbz (fld w 23 3 = 0#3) 4 (.mjmp (fld w 0 23))
  | 12 => mbz (fld w 0 26 = 0#26) 4 (.mend)
  | _ => .error 1

/-- Bits [27:0] of a warp word: the major and the body (R51 to R55). Zero for what is no warp word. -/
def encodeBody : Instr → BitVec 28
  | .pfx m z r v u q => 0x3C#6 ++ m ++ z ++ r ++ v ++ u ++ q ++ 0x0#3
  | .sadd d a x => 0x1#6 ++ d ++ a ++ x ++ 0x0#7
  | .ssub d a x => 0x1#6 ++ d ++ a ++ x ++ 0x1#7
  | .smul d a x => 0x1#6 ++ d ++ a ++ x ++ 0x2#7
  | .smulhI32 d a => 0x1#6 ++ d ++ a ++ 0x3#8
  | .smulhN32 d a => 0x1#6 ++ d ++ a ++ 0x4#8
  | .sdivI32 d a => 0x1#6 ++ d ++ a ++ 0x5#8
  | .sdivN32 d a => 0x1#6 ++ d ++ a ++ 0x6#8
  | .sremI32 d a => 0x1#6 ++ d ++ a ++ 0x7#8
  | .sremN32 d a => 0x1#6 ++ d ++ a ++ 0x8#8
  | .sminI d a x => 0x1#6 ++ d ++ a ++ x ++ 0x9#7
  | .sminN d a x => 0x1#6 ++ d ++ a ++ x ++ 0xA#7
  | .smaxI d a x => 0x1#6 ++ d ++ a ++ x ++ 0xB#7
  | .smaxN d a x => 0x1#6 ++ d ++ a ++ x ++ 0xC#7
  | .sand d a x => 0x1#6 ++ d ++ a ++ x ++ 0xD#7
  | .sor d a x => 0x1#6 ++ d ++ a ++ x ++ 0xE#7
  | .sxor d a x => 0x1#6 ++ d ++ a ++ x ++ 0xF#7
  | .sandn d a x => 0x1#6 ++ d ++ a ++ x ++ 0x10#7
  | .sshl d a x => 0x1#6 ++ d ++ a ++ x ++ 0x11#7
  | .sshr d a x => 0x1#6 ++ d ++ a ++ x ++ 0x12#7
  | .ssar d a x => 0x1#6 ++ d ++ a ++ x ++ 0x13#7
  | .sbfe d a x => 0x1#6 ++ d ++ a ++ x ++ 0x14#7
  | .sbfi d a => 0x1#6 ++ d ++ a ++ 0x15#8
  | .sclz d a x => 0x1#6 ++ d ++ a ++ x ++ 0x16#7
  | .spopc d a x => 0x1#6 ++ d ++ a ++ x ++ 0x17#7
  | .smov d a x => 0x1#6 ++ d ++ a ++ x ++ 0x18#7
  | .ssel d a x p => 0x1#6 ++ d ++ a ++ x ++ 0x7#4 ++ p
  | .saddi d i => 0x2#6 ++ d ++ i
  | .smovi d i => 0x3#6 ++ d ++ i
  | .smovh d i => 0x4#6 ++ d ++ i
  | .scmp p c a b x => 0x5#6 ++ p ++ c ++ a ++ b ++ x
  | .scmpi p c a i x => 0x7#6 ++ p ++ c ++ a ++ i ++ x
  | .srd d r => 0x6#6 ++ d ++ r ++ 0x0#8
  | .srdD d r => 0x6#6 ++ d ++ r ++ 0x80#8
  | .srdV v => 0x6#6 ++ v ++ 0x3#15
  | .swr r a => 0x6#6 ++ r ++ a ++ 0x1#8
  | .swrD r a => 0x6#6 ++ r ++ a ++ 0x81#8
  | .plog p b a u => 0x60#10 ++ p ++ b ++ 0x0#1 ++ a ++ 0x1#4 ++ u
  | .plogM p b a u => 0x60#10 ++ p ++ b ++ 0x0#1 ++ a ++ 0x2#4 ++ u
  | .bra p i => 0x8#6 ++ p ++ 0x0#3 ++ i
  | .braNot p i => 0x8#6 ++ p ++ 0x1#3 ++ i
  | .brcAny m i => 0x8#6 ++ m ++ 0x2#3 ++ i
  | .brcAll m i => 0x8#6 ++ m ++ 0x3#3 ++ i
  | .brcNone m i => 0x8#6 ++ m ++ 0x4#3 ++ i
  | .vbra m i => 0x9#6 ++ m ++ 0x0#3 ++ i
  | .vbraNot m i => 0x9#6 ++ m ++ 0x1#3 ++ i
  | .call s i => 0xA#6 ++ s ++ 0x0#3 ++ i
  | .calli n s => 0x2C0#12 ++ n ++ s ++ 0x0#7
  | .leave n => 0x2C6000#24 ++ n
  | .arrive n => 0x300000#24 ++ n
  | .await p n => 0x301#12 ++ p ++ 0x0#9 ++ n
  | .bsync p n => 0x302#12 ++ p ++ 0x0#9 ++ n
  | .bmemb q a n => 0x303#12 ++ q ++ a ++ 0x0#4 ++ n
  | .cbarrive n => 0xC10000#26 ++ n
  | .cbawait p n => 0x305#12 ++ p ++ 0x0#11 ++ n
  | .waitc c n => 0x340#12 ++ c ++ 0x0#8 ++ n
  | .sigck i => 0x341#12 ++ i
  | .jtake g q => 0xE#6 ++ g ++ 0x0#4 ++ q ++ 0x0#10
  | .jspawn g => 0xE#6 ++ g ++ 0x800#15
  | .jpop g p => 0xE#6 ++ g ++ 0x2#4 ++ p ++ 0x0#8
  | .jsteal g => 0xE#6 ++ g ++ 0x1800#15
  | .lrefill v m => 0x7004#17 ++ v ++ m ++ 0x0#2
  | .vadd d a b => 0x10#6 ++ d ++ a ++ b ++ 0x0#4
  | .vsub d a b => 0x10#6 ++ d ++ a ++ b ++ 0x1#4
  | .vmul d a b => 0x10#6 ++ d ++ a ++ b ++ 0x2#4
  | .vmulhI32 d a b => 0x10#6 ++ d ++ a ++ b ++ 0x3#4
  | .vmulhN32 d a b => 0x10#6 ++ d ++ a ++ b ++ 0x4#4
  | .vmad d a b => 0x10#6 ++ d ++ a ++ b ++ 0x5#4
  | .vabsdI32 d a b => 0x10#6 ++ d ++ a ++ b ++ 0x6#4
  | .vand d a b => 0x10#6 ++ d ++ a ++ b ++ 0x7#4
  | .vor d a b => 0x10#6 ++ d ++ a ++ b ++ 0x8#4
  | .vxor d a b => 0x10#6 ++ d ++ a ++ b ++ 0x9#4
  | .vandn d a b => 0x10#6 ++ d ++ a ++ b ++ 0xA#4
  | .vshl d a b => 0x10#6 ++ d ++ a ++ b ++ 0xB#4
  | .vshr d a b => 0x10#6 ++ d ++ a ++ b ++ 0xC#4
  | .vsar d a b => 0x10#6 ++ d ++ a ++ b ++ 0xD#4
  | .vclz d a => 0x10#6 ++ d ++ a ++ 0xE#10
  | .vpopc d a => 0x10#6 ++ d ++ a ++ 0xF#10
  | .vaddi d a i => 0x11#6 ++ d ++ a ++ i
  | .vmovi d i => 0x12#6 ++ d ++ 0x0#1 ++ i
  | .vmovh d i => 0x12#6 ++ d ++ 0x1#1 ++ i
  | .vaddH2 d a b => 0x13#6 ++ d ++ a ++ b ++ 0x0#4
  | .vaddsH2 d a b => 0x13#6 ++ d ++ a ++ b ++ 0x1#4
  | .vsubH2 d a b => 0x13#6 ++ d ++ a ++ b ++ 0x2#4
  | .vsubsH2 d a b => 0x13#6 ++ d ++ a ++ b ++ 0x3#4
  | .vminH2 d a b => 0x13#6 ++ d ++ a ++ b ++ 0x4#4
  | .vmaxH2 d a b => 0x13#6 ++ d ++ a ++ b ++ 0x5#4
  | .vacsH2 d a b => 0x13#6 ++ d ++ a ++ b ++ 0x6#4
  | .vaddB4 d a b => 0x14#6 ++ d ++ a ++ b ++ 0x0#4
  | .vaddsB4 d a b => 0x14#6 ++ d ++ a ++ b ++ 0x1#4
  | .vminB4 d a b => 0x14#6 ++ d ++ a ++ b ++ 0x2#4
  | .vmaxB4 d a b => 0x14#6 ++ d ++ a ++ b ++ 0x3#4
  | .vabsdB4 d a b => 0x14#6 ++ d ++ a ++ b ++ 0x4#4
  | .vdot4 d a b x y z => 0x15#6 ++ d ++ a ++ b ++ 0x0#1 ++ x ++ y ++ z
  | .vdot8 d a b x y z => 0x15#6 ++ d ++ a ++ b ++ 0x1#1 ++ x ++ y ++ z
  | .vcmpEqI32 m a b => 0xB0#9 ++ m ++ a ++ b ++ 0x0#4
  | .vcmpNeI32 m a b => 0xB0#9 ++ m ++ a ++ b ++ 0x1#4
  | .vcmpLtI32 m a b => 0xB0#9 ++ m ++ a ++ b ++ 0x2#4
  | .vcmpLeI32 m a b => 0xB0#9 ++ m ++ a ++ b ++ 0x3#4
  | .vcmpLtN32 m a b => 0xB0#9 ++ m ++ a ++ b ++ 0x4#4
  | .vcmpLeN32 m a b => 0xB0#9 ++ m ++ a ++ b ++ 0x5#4
  | .vsel d a b => 0x16#6 ++ d ++ a ++ b ++ 0x6#4
  | .vmov d a => 0x16#6 ++ d ++ a ++ 0x7#10
  | .vbcast d a n => 0x16#6 ++ d ++ a ++ 0x0#1 ++ n ++ 0x8#4
  | .vminI32 d a b => 0x16#6 ++ d ++ a ++ b ++ 0x9#4
  | .vminN32 d a b => 0x16#6 ++ d ++ a ++ b ++ 0xA#4
  | .vmaxI32 d a b => 0x16#6 ++ d ++ a ++ b ++ 0xB#4
  | .vmaxN32 d a b => 0x16#6 ++ d ++ a ++ b ++ 0xC#4
  | .vbfe d a b => 0x17#6 ++ d ++ a ++ b ++ 0x0#3
  | .vbfi d a b => 0x17#6 ++ d ++ a ++ b ++ 0x1#3
  | .vpackH2 d a b => 0x17#6 ++ d ++ a ++ b ++ 0x2#3
  | .vpackB4 d a b => 0x17#6 ++ d ++ a ++ b ++ 0x3#3
  | .vunpackI16 d a => 0x17#6 ++ d ++ a ++ 0x4#10
  | .vunpackN16 d a => 0x17#6 ++ d ++ a ++ 0x5#10
  | .vunpackI8 d a => 0x17#6 ++ d ++ a ++ 0x6#10
  | .vunpackN8 d a => 0x17#6 ++ d ++ a ++ 0x7#10
  | .vfaddF32 d a b => 0x18#6 ++ d ++ a ++ b ++ 0x0#4
  | .vfsubF32 d a b => 0x18#6 ++ d ++ a ++ b ++ 0x1#4
  | .vfmulF32 d a b => 0x18#6 ++ d ++ a ++ b ++ 0x2#4
  | .vfminF32 d a b => 0x18#6 ++ d ++ a ++ b ++ 0x3#4
  | .vfmaxF32 d a b => 0x18#6 ++ d ++ a ++ b ++ 0x4#4
  | .vfabsF32 d a => 0x18#6 ++ d ++ a ++ 0x5#10
  | .vfnegF32 d a => 0x18#6 ++ d ++ a ++ 0x6#10
  | .vfcsgnF32 d a b => 0x18#6 ++ d ++ a ++ b ++ 0x7#4
  | .vfaddH2 d a b => 0x1A#6 ++ d ++ a ++ b ++ 0x0#4
  | .vfsubH2 d a b => 0x1A#6 ++ d ++ a ++ b ++ 0x1#4
  | .vfmulH2 d a b => 0x1A#6 ++ d ++ a ++ b ++ 0x2#4
  | .vfminH2 d a b => 0x1A#6 ++ d ++ a ++ b ++ 0x3#4
  | .vfmaxH2 d a b => 0x1A#6 ++ d ++ a ++ b ++ 0x4#4
  | .vfabsH2 d a => 0x1A#6 ++ d ++ a ++ 0x5#10
  | .vfnegH2 d a => 0x1A#6 ++ d ++ a ++ 0x6#10
  | .vfcsgnH2 d a b => 0x1A#6 ++ d ++ a ++ b ++ 0x7#4
  | .vfaddBf2 d a b => 0x1B#6 ++ d ++ a ++ b ++ 0x0#4
  | .vfsubBf2 d a b => 0x1B#6 ++ d ++ a ++ b ++ 0x1#4
  | .vfmulBf2 d a b => 0x1B#6 ++ d ++ a ++ b ++ 0x2#4
  | .vfminBf2 d a b => 0x1B#6 ++ d ++ a ++ b ++ 0x3#4
  | .vfmaxBf2 d a b => 0x1B#6 ++ d ++ a ++ b ++ 0x4#4
  | .vfabsBf2 d a => 0x1B#6 ++ d ++ a ++ 0x5#10
  | .vfnegBf2 d a => 0x1B#6 ++ d ++ a ++ 0x6#10
  | .vfcsgnBf2 d a b => 0x1B#6 ++ d ++ a ++ b ++ 0x7#4
  | .vffma d a b f => 0x19#6 ++ d ++ a ++ b ++ f ++ 0x0#2
  | .vffms d a b f => 0x19#6 ++ d ++ a ++ b ++ f ++ 0x1#2
  | .vfnma d a b f => 0x19#6 ++ d ++ a ++ b ++ f ++ 0x2#2
  | .vcvt d a x y e => 0x1C#6 ++ d ++ a ++ x ++ y ++ e
  | .vfrcp d a => 0x1D#6 ++ d ++ a ++ 0x0#10
  | .vfrsq d a => 0x1D#6 ++ d ++ a ++ 0x1#10
  | .vfsqrt d a => 0x1D#6 ++ d ++ a ++ 0x2#10
  | .vfexp2 d a => 0x1D#6 ++ d ++ a ++ 0x3#10
  | .vflog2 d a => 0x1D#6 ++ d ++ a ++ 0x4#10
  | .vfsin d a => 0x1D#6 ++ d ++ a ++ 0x5#10
  | .vfcos d a => 0x1D#6 ++ d ++ a ++ 0x6#10
  | .vftanh d a => 0x1D#6 ++ d ++ a ++ 0x7#10
  | .vfsigm d a => 0x1D#6 ++ d ++ a ++ 0x8#10
  | .vfcmpF32 m a b c => 0xF0#9 ++ m ++ a ++ b ++ 0x0#2 ++ c
  | .vfcmpPacked d a b f c => 0x1E#6 ++ d ++ a ++ b ++ f ++ c
  | .vhad d a => 0x1F#6 ++ d ++ a ++ 0x0#10
  | .vkflip d a b => 0x1F#6 ++ d ++ a ++ b ++ 0x1#3
  | .vamax d a => 0x1F#6 ++ d ++ a ++ 0x2#10
  | .vqmx d a e => 0x1F#6 ++ d ++ a ++ e ++ 0x3#3
  | .vdqmx d a e => 0x1F#6 ++ d ++ a ++ e ++ 0x4#3
  | .vshflIdx d a b => 0x20#6 ++ d ++ a ++ b ++ 0x0#4
  | .vshflXor d a n => 0x20#6 ++ d ++ a ++ 0x0#1 ++ n ++ 0x1#4
  | .vshflUp d a n => 0x20#6 ++ d ++ a ++ 0x0#1 ++ n ++ 0x2#4
  | .vshflDn d a n => 0x20#6 ++ d ++ a ++ 0x0#1 ++ n ++ 0x3#4
  | .vshflIdxH2 d a b => 0x20#6 ++ d ++ a ++ b ++ 0x4#4
  | .vmatch d a => 0x21#6 ++ d ++ a ++ 0x0#10
  | .vmatchNum d a => 0x21#6 ++ d ++ a ++ 0x1#10
  | .vballot d a => 0x21#6 ++ d ++ a ++ 0x2#10
  | .vlaneid d => 0x21#6 ++ d ++ 0x3#16
  | .vredsumI32 d a => 0x22#6 ++ d ++ a ++ 0x0#10
  | .vredsumF32 d a => 0x22#6 ++ d ++ a ++ 0x1#10
  | .vredmaxI32 d a => 0x22#6 ++ d ++ a ++ 0x2#10
  | .vredmaxN32 d a => 0x22#6 ++ d ++ a ++ 0x3#10
  | .vredmaxF32 d a => 0x22#6 ++ d ++ a ++ 0x4#10
  | .vredminI32 d a => 0x22#6 ++ d ++ a ++ 0x5#10
  | .vredminN32 d a => 0x22#6 ++ d ++ a ++ 0x6#10
  | .vredminF32 d a => 0x22#6 ++ d ++ a ++ 0x7#10
  | .vscanI32 d a => 0x22#6 ++ d ++ a ++ 0x8#10
  | .vscanF32 d a => 0x22#6 ++ d ++ a ++ 0x9#10
  | .vscanExI32 d a => 0x22#6 ++ d ++ a ++ 0xA#10
  | .vscanExF32 d a => 0x22#6 ++ d ++ a ++ 0xB#10
  | .vrdl d a b => 0x23#6 ++ d ++ a ++ b ++ 0x0#3
  | .vwrl d b => 0x23#6 ++ d ++ 0x0#6 ++ b ++ 0x1#3
  | .vrdlD d a b => 0x23#6 ++ d ++ a ++ b ++ 0x2#3
  | .vwrlD d b => 0x23#6 ++ d ++ 0x0#6 ++ b ++ 0x3#3
  | .vld v p m z q i => 0x24#6 ++ v ++ p ++ m ++ z ++ q ++ i
  | .vst v p m z q i => 0x25#6 ++ v ++ p ++ m ++ z ++ q ++ i
  | .sld v p m z q i => 0x26#6 ++ v ++ p ++ m ++ z ++ q ++ i
  | .sst v p m z q i => 0x27#6 ++ v ++ p ++ m ++ z ++ q ++ i
  | .vgld v p m z q h => 0x28#6 ++ v ++ p ++ 0x0#1 ++ m ++ z ++ q ++ 0x0#2 ++ h
  | .vgst v p m z q h => 0x29#6 ++ v ++ p ++ 0x0#1 ++ m ++ z ++ q ++ 0x0#2 ++ h
  | .vatom v p o r c y => 0x2A#6 ++ v ++ p ++ o ++ r ++ c ++ y
  | .catom v p o r n y => 0x2B#6 ++ v ++ p ++ 0x0#2 ++ o ++ r ++ n ++ y
  | .cfaddo v p s => 0x2B#6 ++ v ++ p ++ 0x1#2 ++ s ++ 0x0#1
  | .cline v p o => 0x2B#6 ++ v ++ p ++ 0x2#2 ++ o ++ 0x0#5
  | .cabandon p s => 0xAC0#12 ++ p ++ 0x3#2 ++ s ++ 0x0#1
  | .fence o c => 0xB00#12 ++ o ++ c ++ 0x0#11
  | .accrd v l r => 0x2D#6 ++ v ++ l ++ r ++ 0x0#1
  | .accwr v l r => 0x2D#6 ++ v ++ l ++ r ++ 0x1#1
  | .cpy g d y s => 0x30#6 ++ g ++ 0x0#4 ++ d ++ y ++ s ++ 0x0#7
  | .cpyo g => 0x30#6 ++ g ++ 0x800#15
  | .cpyr g => 0x30#6 ++ g ++ 0x1000#15
  | .cpyp g => 0x30#6 ++ g ++ 0x1800#15
  | .oclaim g => 0x31#6 ++ g ++ 0x0#15
  | .orel g u => 0x31#6 ++ g ++ 0x1#4 ++ u ++ 0x0#10
  | .ohdr g => 0x31#6 ++ g ++ 0x1000#15
  | .ofill g v => 0x31#6 ++ g ++ 0x3#4 ++ v ++ 0x0#5
  | .nsig g a => 0x32#6 ++ g ++ 0x0#4 ++ a ++ 0x0#10
  | .nwake g a => 0x32#6 ++ g ++ 0x1#4 ++ a ++ 0x0#10
  | .ndep g w n => 0x32#6 ++ g ++ 0x2#4 ++ w ++ n ++ 0x0#8
  | .nrd g w c => 0x32#6 ++ g ++ 0x3#4 ++ w ++ c ++ 0x0#8
  | .njoin g => 0x32#6 ++ g ++ 0x2000#15
  | .nwait g w => 0x32#6 ++ g ++ 0x5#4 ++ w ++ 0x0#10
  | .nself g => 0x32#6 ++ g ++ 0x3000#15
  | .wwait g x => 0x33#6 ++ g ++ 0x0#4 ++ x ++ 0x0#10
  | .wwake g => 0x33#6 ++ g ++ 0x800#15
  | .srec g v => 0x34#6 ++ g ++ 0x0#4 ++ v ++ 0x0#5
  | .swm g => 0x34#6 ++ g ++ 0x800#15
  | .sidle g => 0x34#6 ++ g ++ 0x1000#15
  | .swin g => 0x34#6 ++ g ++ 0x1800#15
  | .swinL g v => 0x34#6 ++ g ++ 0x7#5 ++ v ++ 0x0#4
  | .spub g => 0x34#6 ++ g ++ 0x2000#15
  | .samend g => 0x34#6 ++ g ++ 0x2800#15
  | .sdone g => 0x34#6 ++ g ++ 0x3000#15
  | .mpost g => 0x35#6 ++ g ++ 0x0#15
  | .msend g => 0x35#6 ++ g ++ 0x800#15
  | .mstat g p => 0x35#6 ++ g ++ 0x2#4 ++ p ++ 0x0#8
  | .fsreq g w => 0x35#6 ++ g ++ 0x3#4 ++ w ++ 0x0#9
  | .trap i => 0xE00#12 ++ i
  | .brk i => 0xE01#12 ++ i
  | .drain a d => 0xE42#12 ++ a ++ d ++ 0x0#2
  | .wsnap a b p => 0xE43#12 ++ a ++ b ++ p
  | .accspl p n => 0xE44#12 ++ p ++ n
  | .accfil p n => 0xE45#12 ++ p ++ n
  | .mapset a p => 0xE46#12 ++ a ++ p ++ 0x0#6
  | .tlbinv a c => 0xE47#12 ++ a ++ c ++ 0x0#6
  | .psrd d r => 0x3A#6 ++ d ++ r ++ 0x0#8
  | .psrdD d r => 0x3A#6 ++ d ++ r ++ 0x80#8
  | .pswr r a => 0x3A#6 ++ r ++ a ++ 0x1#8
  | .pswrD r a => 0x3A#6 ++ r ++ a ++ 0x81#8
  | .nop => 0x0#28
  | .ret => 0x2C10000#28
  | .exit => 0x2C20000#28
  | .region => 0x2C30000#28
  | .lhead => 0x2C40000#28
  | .reconv => 0x2C50000#28
  | .rte => 0xE400000#28
  | .hbcast => 0xE410000#28
  | _ => 0#28

/-- A warp word with its chain bit and stall count (R43). -/
def encodeWord (h : Header) (i : Instr) : BitVec 32 := BitVec.ofBool h.cb ++ h.stall ++ encodeBody i

/-- A matrix word (R59, R167). Zero for what is no matrix word. -/
def encodeMatrix : Instr → BitVec 32
  | .mmac t a b => 0x1#6 ++ t ++ a ++ b
  | .mmact t a b => 0x2#6 ++ t ++ a ++ b
  | .mzero t y => 0x3#6 ++ t ++ y ++ 0x0#15
  | .mrel p a b => 0x800#15 ++ p ++ a ++ b
  | .mbara n => 0x1400000#28 ++ n
  | .mbarw n => 0x1800000#28 ++ n
  | .mset n i => 0x7#6 ++ n ++ 0x0#7 ++ i
  | .msetMode s => 0xE200000#31 ++ s
  | .mdec n => 0x8#6 ++ n ++ 0x0#23
  | .mbnz n d => 0x9#6 ++ n ++ d
  | .mbstAb d => 0x50#9 ++ d
  | .mbstNab d => 0x51#9 ++ d
  | .mjmp d => 0x58#9 ++ d
  | .mnop => 0x0#32
  | .mend => 0x30000000#32
  | _ => 0#32

/-- What has an encoding, and in which stream it stands (R43, R59). -/
inductive Stream where
  | warp
  | matrix
  | none
  deriving DecidableEq, Repr

/-- The stream an instruction's word belongs to. -/
def Instr.stream : Instr → Stream
  | .mmac _ _ _ => .matrix
  | .mmact _ _ _ => .matrix
  | .mzero _ _ => .matrix
  | .mrel _ _ _ => .matrix
  | .mbara _ => .matrix
  | .mbarw _ => .matrix
  | .mset _ _ => .matrix
  | .msetMode _ => .matrix
  | .mdec _ => .matrix
  | .mbnz _ _ => .matrix
  | .mbstAb _ => .matrix
  | .mbstNab _ => .matrix
  | .mjmp _ => .matrix
  | .mnop => .matrix
  | .mend => .matrix
  | .runArbitration _ _ => .none
  | .resultWriteback _ => .none
  | .loadDataArrival _ _ => .none
  | .mmacComplete _ _ => .none
  | .engineOpComplete _ => .none
  | .copyResume _ => .none
  | .rackingSpill _ => .none
  | .rackingRefill _ => .none
  | .rackingTransferDone _ => .none
  | .sendResolve _ => .none
  | .messageDelivery _ => .none
  | .bouncePlacement _ => .none
  | .lauterContribution _ => .none
  | .hostNsig _ _ => .none
  | .hostNwake _ _ => .none
  | .hostNdep _ _ => .none
  | .hostTake _ _ => .none
  | .hostNrd _ _ => .none
  | .hostWwait _ _ => .none
  | .hostWwake _ _ => .none
  | .hostMpost _ _ => .none
  | .hostMstat _ _ => .none
  | .hostPlace _ _ => .none
  | .contextCreate _ _ => .none
  | .launchQueueConfig _ _ _ _ _ => .none
  | .launchRecordTake _ => .none
  | .launchDependenceMet _ => .none
  | .blockAdmit _ _ => .none
  | .blockSwap _ _ => .none
  | .preemptRequest _ _ _ => .none
  | .blockSave _ _ => .none
  | .t1Expiry _ => .none
  | .t2Expiry _ => .none
  | .blockRestore _ _ _ => .none
  | .migrationBegin _ _ _ => .none
  | .transitTimeout _ => .none
  | .hostThreadRegister _ _ _ => .none
  | .hostThreadRetire _ => .none
  | .nameFlush => .none
  | .handlerEntry _ => .none
  | .drainWindowExpiry _ => .none
  | .faultQueueAppend => .none
  | .faultResumeToken _ => .none
  | .mgmtRegisterWrite _ _ _ => .none
  | .streamConfigure _ _ => .none
  | .streamUnbind _ => .none
  | .sourceIdleTimeout _ _ => .none
  | .activationStart _ => .none
  | .checkpointStart _ => .none
  | .checkpointFreeze => .none
  | .frozenGranuleWrite _ => .none
  | .checkpointGranuleSend _ => .none
  | .checkpointPeerAck _ => .none
  | .linkFlitReplay _ => .none
  | .linkDown _ => .none
  | .inboundFlit _ _ _ => .none
  | .fenceRevoke _ => .none
  | .sparePowerUp => .none
  | .rehome _ => .none
  | .dieOvertemp _ => .none
  | .powerCapSet _ => .none
  | .attestationRequest _ => .none
  | .bringUp _ _ => .none
  | .contextReset _ _ => .none
  | .scrubbing _ _ => .none
  | .clockLowering _ => .none
  | .cxlMemHostAccess _ _ => .none
  | _ => .warp

/-- The four bytes of a word, least significant first (R3, R43). -/
def wordBytes (w : BitVec 32) : List Byte := [fld w 0 8, fld w 8 8, fld w 16 8, fld w 24 8]

/-- The word of four bytes, least significant first (R3, R43). -/
def bytesWord (a b c d : Byte) : BitVec 32 := d ++ c ++ b ++ a

/-- The decoder over the bytes of a word as memory holds them. -/
def decodeBytes : List Byte → Option Instr
  | [a, b, c, d] => (decodeWord (bytesWord a b c d)).toOption
  | _ => none

/-- The word of a table row: one 32-bit word, decoded as a warp word (R59, R60: a matrix word in a warp's program
is an ordinary word; DESIGN CHOICE, assumption 5). -/
def decodeTableWord (nbits w : Nat) : Option Instr :=
  if nbits ≤ 32 then decodeBytes (wordBytes (BitVec.ofNat 32 w)) else none

end Sys2Proof
end

