-- ==== Sys2Proof/Machine/State.lean ====
section
/-!
DEFINITION. The state of the machine as plain data (01_state.md, 08_kernel_execution.md, 09_kernel_storage.md and the
chapters of Parts II to IV). The warp that issues, its block, its core and its context are the loaded records `warp`,
`blk`, `core` and `ctx`; every other one stands in the lists `warps`, `blks`, `cores` and `ctxs`.
-/
namespace Sys2Proof.Machine

/-! ## Registers and results in flight (R9, R48) -/

/-- The level a warp runs at (R335, R351). -/
inductive Level where
  | user
  | handler
  | firmware
  deriving DecidableEq, Repr

/-- A register as the register file holds it: windowed registers by ring index (R12). -/
inductive Dest where
  | u (n : Nat)
  | vf (n : Nat)
  | vr (i : Nat)
  | p (n : Nat)
  | m (n : Nat)
  | q (n : Nat)
  deriving DecidableEq, Repr

/-- A result not yet written (R48): `due` is the cycle of a fixed-latency result, `none` for a VAR result.
A scalar stands in lane 0; a `q` register's high half in lane 1. `exec`: a word of the execute stream gives it (R211); `mem`: it is
what a request to memory brings (R1). -/
structure Pend where
  id : Nat
  due : Option Nat
  exec : Bool
  mem : Bool
  dest : Dest
  lanes : Word
  val : VReg
  deriving DecidableEq, Repr

/-- One entry of a data queue (R15): its load's number and split, its data once they have arrived, and what its
descriptor holds (R288): the load word, the word of its PREFIX or 0, the mask, the base before the update, and the index vector of a
`vgld`. `reissue`: it was saved as its load, which has still to be issued again (R291). -/
structure DqEntry where
  id : Nat
  sp : Nat
  arrived : Bool
  val : VReg
  word : Word
  pword : Word
  mask : Word
  base : DWord
  index : VReg
  reissue : Bool
  deriving DecidableEq, Repr

/-- The fields of a prefix word (R55). -/
structure Pfx where
  m : BitVec 3
  z : BitVec 1
  r : BitVec 3
  v : BitVec 6
  u : BitVec 3
  q : BitVec 3
  deriving DecidableEq, Repr

/-! ## Traps -/

/-- Why the machine's warp traps or faults (R334), with what its record needs. -/
inductive Trap where
  /-- R58: the cause code and the slot. -/
  | illegal (cause slot : Nat)
  | reconvOverflow
  | dqUnderflow
  | barrierDivergence
  | resourceRange
  | operandFormat
  /-- R106. -/
  | address (va : DWord)
  /-- R296: a page that forbids the access, with the agent, the kind and the access of R297. -/
  | protect (va : DWord) (agent kind access : Nat)
  | windowOverflow
  | accFirstUse
  /-- R193. -/
  | user (imm : Half)
  | brk (imm : Half)
  /-- R50: replayable. -/
  | undersized
  /-- R138, R329: a signature mismatch. -/
  | signature
  /-- R296: a page that is not present, the agent and access of R297. -/
  | miss (va : DWord) (agent access : Nat)
  /-- R331: poison consumed, in a row of a tile, or elsewhere (0xFFFF and 0, R333); the warp is lost. -/
  | poison (tile row : Nat)
  /-- R137: the fault of a copy that a `waitc` covers. -/
  | engine (va : DWord)
  /-- R199: a fault of the handler's own copy. -/
  | nested
  deriving DecidableEq, Repr

/-- The counter class of an operation (R19). -/
inductive CClass where
  | cp
  | gs
  | cl
  | ax
  | none
  deriving DecidableEq, Repr

/-! ## Splits and warps (R8, R206) -/

/-- Why a split waits, with what its first attempt has already done (R210). -/
inductive Wait where
  /-- The chain is taken again when it can complete. -/
  | retry
  /-- A call waits for room in the ring (R215). -/
  | callRoom (k : Nat)
  /-- A return waits for its frame (R215). -/
  | retFrame
  /-- The warp has arrived at a barrier and waits for the generation (R140, R142). -/
  | barrier (cluster : Bool) (n : Nat) (gen : Word)
  /-- The warp's second arrival in a generation waits for the next one (R140, R241). -/
  | arriveWait (cluster : Bool) (n : Nat) (gen : Word)
  /-- One split of a diverged warp stands at a barrier instruction (R140). -/
  | barrierPark (cluster : Bool) (n : Nat)
  /-- A chunk that a take has fetched waits for room in the item queue (R222). -/
  | items (first count : Nat)
  /-- Parked in `nwait` (R176): the minimum and whether a wake ends it, as its command registers held them at its issue (R151). -/
  | nwait (min : Word) (wake : Bool)
  /-- Parked in `njoin` (R176) on a name and a generation, as its command registers held them at its issue (R151). -/
  | njoin (name : DWord) (gen : Half)
  /-- Parked in a `njoin` whose name has gone DEAD: it ends with OK (R277). -/
  | joined
  /-- Parked in the wait table (R179). -/
  | wwait (woken : Bool)
  /-- A replayable fault is being served (R221, R297). -/
  | service (token : Nat)
  deriving DecidableEq, Repr

/-- A wait in `nwait`, `njoin` or `wwait`. -/
def Wait.isPark : Wait → Bool
  | .nwait .. => true
  | .njoin .. => true
  | .joined => true
  | .wwait _ => true
  | _ => false

/-- The state of a split record (R206); what is deferred stands in a reconvergence entry. -/
inductive SplitState where
  | free
  | live
  | atReconv
  | atBarrier
  | behindCall
  deriving DecidableEq, Repr

/-- A split record (R206, R220), with the bookkeeping of issue (R47, R56, R209). `mark` numbers the region entry for R221;
`late` holds writes that R21 delays to the next run; `ptrap` a `trap` or `brk` taken after its packet (R193);
`presig` is `sig` before the packet and `folded` its words folded since, newest first (R220); `rmerge` the `reconv`
whose merge began the region, which a replay passes (`rskip`, R221); `spent`: the region's one instruction that is not
idempotent has issued (R68, R289); `begun`: how far the chain at its place has come when a word of it waits: 0 not at all, 1 but for its barrier and control words, 2 but for its
control word
(R46, R210). -/
structure Split where
  st : SplitState
  pc : DWord
  mask : Word
  sig : Word
  region : DWord
  saved : Word
  mism : Bool
  slot : Nat
  nextIssue : Nat
  runLen : Nat
  lost : Nat
  lastWin : Nat
  wait : Option Wait
  pendCall : Option DWord
  stamp : Nat
  mark : Nat
  late : List (Nat × DWord)
  ptrap : Option Trap
  folded : List Word
  presig : Word
  rmerge : Option (DWord × Nat)
  rskip : Bool
  spent : Bool
  begun : Nat
  deriving DecidableEq, Repr

/-- A reconvergence entry (R208); newest first in a warp; `merge` is the return packet
and frame depth of a divided `calli` (R131). A split in
`deferred` that stands at its `reconv` has given up its record to a deferred one (R207); the others wait to run. `home` is the record
that the last of the entry's splits to arrive or to leave stood in, which the next deferred one takes. -/
structure Recon where
  pending : Word
  arrived : Word
  deferred : List Split
  merge : Option (DWord × Nat)
  home : Nat
  deriving DecidableEq, Repr

/-- A link entry: return address and slide (R129); `out` when its frame is spilled (R215). -/
structure Link where
  ret : DWord
  k : Nat
  out : Bool
  deriving DecidableEq, Repr

/-- A transfer of the racking engine (R216, R218). `own`: the split whose waiting call creates the frame, or whose return refills
it (R215). -/
structure Rack where
  spill : Bool
  depth : Nat
  k : Nat
  off : Nat
  own : Option Nat
  token : Option Nat
  deriving DecidableEq, Repr

/-- Splits parked behind a call (R219): the depth and wbase before it, the caller's lanes, and the records. -/
structure CallPark where
  depth : Nat
  wbase : Nat
  mask : Word
  who : List Nat
  deriving DecidableEq, Repr

/-- The fault record a handler serves (R334, R335): its address and whose it is. -/
structure Served where
  addr : Nat
  key : WKey
  sp : Nat
  seq : Bool
  cause : Nat
  ctx : Nat
  firmware : Bool
  deriving DecidableEq, Repr

/-- A copy's fault that its warp has still to take (R155, R199): the counter class, the address, and the register that
receives the copy's result. -/
structure CopyFault where
  cls : CClass
  va : DWord
  reg : Option Nat
  deriving DecidableEq, Repr

/-- A warp. `dqWait` holds the loads that a full data queue keeps the access stream from pushing, the oldest first (R15); `rackNext` is the
refill that a `ret` has begun while another transfer is in flight, and `rackDone` the split whose waiting call has its own frame in
the cask (R215); `hshare` is the register `waitshare` of a handler warp, which has no block (R203, R335). -/
structure Warp where
  key : WKey
  wslot : Nat
  name : DWord
  level : Level
  sregs : Vector Word 96
  vfix : Vector VReg 16
  ring : Vector VReg 176
  w : Nat
  preds : BitVec 8
  masks : Vector Word 8
  q : Vector DWord 4
  dq : Vector (List DqEntry) 4
  dqWait : Vector (List DqEntry) 4
  bq : List Bool
  wbase : Nat
  links : List Link
  wlimit : Nat
  cask : Nat
  rack : Option Rack
  rackNext : Option Rack
  rackDone : Option Nat
  callParks : List CallPark
  recon : List Recon
  splits : Vector Split 4
  lastSplit : Nat
  loopHead : DWord
  pend : List Pend
  nfault : BitVec 8
  ncont : DWord
  served : Option Served
  copyFault : List CopyFault
  halted : Bool
  exited : Bool
  lastArr : List (Bool × Nat × Word × Bool)
  hshare : Nat
  deriving DecidableEq, Repr

/-! ## Blocks (R8, R16 to R18, R223 to R230, R241) -/

/-- The status of an accumulator tile (R16). -/
structure Tile where
  n : Nat
  int : Bool
  poison : Word
  nconf : Bool
  deriving DecidableEq, Repr

/-- What waits for the mmacs that read a slot, and for a warp's earlier fills of it (R159, R228), with its number and
its warp: a claim, a release, or a fill whose swizzle and cleared completion bits have still to be recorded (R156, R162, R163). -/
inductive SlotEvent where
  | claim (id : Nat) (who : Option WKey) (hdr soff : Word)
  | release (id : Nat) (who : Option WKey) (unclaim : Bool)
  | fill (id : Nat) (who : Option WKey) (swz : Nat) (data scale : Bool)
  deriving DecidableEq, Repr

/-- An operand slot that has been claimed (R160 to R165). The stamp is a swizzle, 4 is "mixed", `none` no fill yet.
`img` and `scl` hold its bytes (image offset, byte), which a claim keeps. -/
structure OSlot where
  n : Nat
  claimed : Bool
  hdr : Word
  soff : Word
  data : Bool
  scale : Bool
  stamp : Option Nat
  img : List Host.Cell
  scl : List Host.Cell
  badRows : Word
  readers : Nat
  events : List SlotEvent
  deriving DecidableEq, Repr

/-- A named barrier (R241); the sequencer is member `32`. `wait`: who has arrived again and waits for the next generation. -/
structure Bar where
  mem : Word
  memSeq : Bool
  nmem : Word
  nmemSeq : Bool
  gen : Word
  arr : Word
  arrSeq : Bool
  wait : Word
  waitSeq : Bool
  abn : Bool
  deriving DecidableEq, Repr

/-- A cluster barrier of a context in a logical cluster (R142, R241). -/
structure CBar where
  ctx : Nat
  cluster : Nat
  n : Nat
  mem : List WKey
  nmem : List WKey
  gen : Word
  arr : List WKey
  wait : List WKey
  abn : Bool
  deriving DecidableEq, Repr

/-- An mmac in the array (R166): it writes its tile in cycle `due`. -/
structure MFlight where
  due : Nat
  tile : Nat
  a : Nat
  b : Nat
  sat : Bool
  number : Nat
  deriving DecidableEq, Repr

/-- The matrix sequencer of a block (R59, R166 to R172). `waiting`: the barrier and generation of `mbarw`; `late`: its second
arrival in a generation, which waits for the next one, with whether it is that of `mbarw` (R171, R241). -/
structure Seq where
  present : Bool
  base : DWord
  len : Nat
  pc : DWord
  c : Vector Half 8
  sat : Bool
  abn : Bool
  stopped : Bool
  ended : Bool
  halted : Bool
  number : Nat
  nextAt : Nat
  arrayFree : Nat
  flights : List MFlight
  waiting : Option (Nat × Word)
  late : Option (Nat × Word × Bool)
  deriving DecidableEq, Repr

/-- A running activation of a standing kernel (R308): amend or fire, the window, and the late record. -/
structure Activation where
  stream : Nat
  amend : Bool
  window : Nat
  key : Word
  time : DWord
  payload : List Word
  deriving DecidableEq, Repr

/-- Where a block stands (R271, R286). -/
inductive Life where
  | idle
  | resident
  | saved
  | done
  deriving DecidableEq, Repr

/-- A block. `since`: the cycle from which it has been resident; `startAt`: the cycle of its start (R293). -/
structure Block where
  core : Nat
  slot : Nat
  ctx : Nat
  launch : Nat
  rank : Nat
  nw : Nat
  life : Life
  since : Nat
  startAt : Nat
  w : Nat
  fixed : Nat
  part : Nat
  acc : Nat
  slots : Nat
  bars : Nat
  clusterBars : Bool
  prio : Nat
  waitshare : Nat
  card : DWord
  scratch : List Host.Cell
  full : List Nat
  spoison : List Nat
  tiles : List Tile
  oslots : List OSlot
  barrier : List Bar
  seq : Seq
  inbox : Option DWord
  stealPosted : Bool
  items : List Word
  fresh : Bool
  act : Option Activation
  draining : Bool
  freed : Bool
  migrate : Option Nat
  area : Nat
  deriving DecidableEq, Repr

/-! ## Cores and contexts -/

/-- A steal request: the thief's core, context slot and context (R268). -/
structure StealReq where
  core : Nat
  slot : Nat
  ctx : Nat
  deriving DecidableEq, Repr

/-- A logical core. `ports`: the split that holds each partition's issue port, and `portAt` the cycle from which a free port
may be won (R210); `accBusy`: accumulator accesses wait for the first-use handler (R293); `left`: the item queues of contexts
that have no block resident here (R222; a resident block's queue stands in its record); `owned`: the contexts that have owned the
accumulator store, with the cycle in which each last did (R293). -/
structure Core where
  id : Nat
  accown : BitVec 3
  acc : List (Nat × VReg)
  accBusy : Bool
  mailbox : List StealReq
  ports : Vector (Option (WKey × Nat)) 4
  portAt : Vector Nat 4
  handling : Option Served
  records : List Served
  drainUntil : Option Nat
  drainFrom : Nat
  left : List (Nat × List Word)
  owned : List (Nat × Nat)
  deriving DecidableEq, Repr

/-- The stages of a pre-emption (R286). -/
inductive Preempt where
  | running
  | draining
  | forced
  | saved
  | lost
  deriving DecidableEq, Repr

/-- A context (R259), with its pre-emption (R286) and its save pool's allocation (R288). -/
structure Ctx where
  id : Nat
  live : Bool
  desc : Nat
  root : Nat
  domain : Half
  pkey : Half
  keyid : Nat
  checking : Bool
  debugging : Bool
  handler : Bool
  entry : DWord
  service : DWord
  cbase : Nat
  csize : Nat
  t1 : Nat
  t2 : Nat
  lost : Word
  pool : Nat
  poolSize : Nat
  areas : List (Nat × Nat)
  hostPage : Nat
  pre : Preempt
  preSince : Nat
  preFree : Bool
  halted : Bool
  deriving DecidableEq, Repr

/-! ## Launches (R261 to R265) -/

structure Queue where
  id : Nat
  base : Nat
  log2n : Nat
  prio : Nat
  ctx : Nat
  head : Word
  tail : Word
  headLaunch : Option Nat
  deriving DecidableEq, Repr

/-- A launch taken from a queue: the fields of its record (R262) and its progress; `readyAt`: the cycle in which its dependence
was met (R271); `unbound`: the driver has unbound it from its stream (R308). -/
structure Launch where
  id : Nat
  queue : Nat
  prio : Nat
  ctx : Nat
  recAddr : Nat
  entry : DWord
  stream : DWord
  streamLen : Nat
  card : DWord
  blocks : Nat
  nw : Nat
  w : Nat
  fixed : Nat
  waitshare : Nat
  part : Nat
  acc : Nat
  slots : Nat
  bars : Nat
  clusterBars : Bool
  standing : Bool
  binding : Nat
  wlimit : Nat
  cask : Nat
  nameBase : DWord
  completion : DWord
  depKind : Nat
  depOp : Word
  depObj : DWord
  status : Nat
  offered : Nat
  finished : Nat
  readyAt : Nat
  unbound : Bool
  deriving DecidableEq, Repr

/-- A block that is saved, as the device keeps it beside its records (R288, R290): `transit` with the destination of a
migration (R277), `swapped` when the launch unit saved it (R271), the areas of its records, and the cycle from which it has been
ready (R271). -/
structure Saved where
  blk : Block
  warps : List Warp
  areas : List (Nat × Nat)
  transit : Bool
  dest : Nat
  swapped : Bool
  readyAt : Option Nat
  deriving DecidableEq, Repr

/-! ## Names, sends and the wait table (R273 to R284) -/

structure Post where
  addr : DWord
  len : Nat
  id : Word
  deriving DecidableEq, Repr

structure Receipt where
  id : Word
  status : Word
  len : Word
  tag : Half
  domain : Half
  deriving DecidableEq, Repr

/-- A cached name-table entry (R275), with the receive buffers and receipts of its owner (R189, R191). -/
structure NameEntry where
  name : DWord
  gen : Half
  opn : Bool
  nacc : Nat
  wake : Bool
  st : Nat
  count : Nat
  loc : DWord
  accept : Vector Half 4
  dep : Vector DWord 4
  posts : List Post
  receipts : List Receipt
  ctx : Nat
  transitAt : Nat
  deriving DecidableEq, Repr

/-- What a send does at its target (R175, R190, R281). -/
inductive SendOp where
  | sig (n : Nat)
  | wake
  | dep (k : Nat) (v : DWord) (sig : Bool)
  | msg (len : Nat) (tag : Half) (payload : List Byte) (bad : List Bool)
  | place (d : Nat) (bytes : List Byte) (bad : List Bool)
  deriving DecidableEq, Repr

/-- An accepted send in flight (R174, R190): the register of its status, or none; `src` the module it came from, or none for
this one (R340); `host` the address of the command slot of the host thread that made it (R280). -/
structure Send where
  id : Nat
  core : Option Nat
  key : Option WKey
  reg : Nat
  op : SendOp
  name : DWord
  anyGen : Bool
  gen : Half
  domain : Half
  src : Option Nat
  host : Option Nat
  deriving DecidableEq, Repr

/-- A message on its way through a bounce page (R298). -/
structure Bounce where
  id : Nat
  name : DWord
  post : Post
  bytes : List Byte
  full : Nat
  trunc : Bool
  tag : Half
  domain : Half
  ctx : Nat
  bad : List Bool
  deriving DecidableEq, Repr

/-- One waiter of the wait table (R283): a warp by its name and place, or a host thread's wake word. -/
structure WEntry where
  id : Nat
  ctx : Nat
  va : DWord
  warp : Option WKey
  wakeAddr : DWord
  hslot : Nat
  deriving DecidableEq, Repr

/-- A host command that the device has taken (R280): its context and slot, the slot's address, and its bytes as read then. -/
structure HostTaken where
  ctx : Nat
  slot : Nat
  addr : Nat
  bytes : List Byte
  deriving DecidableEq, Repr

/-! ## Engines (R153 to R163, R239) -/

/-- A place in one of the three spaces (R106): physical memory with the key of its page, a partition, or the cellar. -/
inductive Place where
  | mem (pa key : Nat)
  | scratch (core slot off : Nat)
  | cellar (off : Nat)
  deriving DecidableEq, Repr

/-- What an engine operation does when it is performed. `gather`, `scatter` and `catom` hold the places that their issue checked,
`gather` with lanes and the number of its result; `feload` the lanes of its split; `fold` whether its cell was open when the
operation reached it (R121). -/
inductive EngKind where
  | cpy (put : Bool) (far near : Nat) (nearCellar : Bool) (rows rb stride : Nat)
  | cpyo (src : Nat) (slot : Nat) (swz stride : Nat)
  | ofill (slot : Nat) (chunk : Nat) (sc final : Bool) (mask : Word) (val : VReg)
  | cpyr (localA remote : Nat) (module : Nat) (put : Bool) (len : Nat)
  | wsnap (addr : Nat) (bytes : List Byte) (bad : List Nat) (reg pid : Nat)
  | gather (sz pid : Nat) (ps : List (Nat × Place))
  | scatter (sz : Nat) (fs : Bool) (xs : List (Place × Nat))
  | feload (sz : Nat) (clear : Bool) (pid : Nat) (cells : List (Nat × Nat × Nat × Nat)) (lanes : Word)
  | line (op : Nat) (addr : Nat) (mask : Word) (val : VReg)
  | catom (sz op ty : Nat) (xs : List (Place × Nat × Nat))
  | fold (abandon : Bool) (line : Nat) (group : Nat) (lanes : Word) (val : VReg) (found : Bool)
  | accrd
  | accwr
  | accspl (tile : Nat) (addr : Nat)
  | accfil (tile : Nat) (addr : Nat)
  | msend (send : Nat)
  deriving DecidableEq, Repr

/-- An engine operation of a warp, issued and not yet retired, in issue order (R239), with the context, the warp slot
and the level it was issued from, and the packet of its word. `off` is the byte
offset of R155, `bad` the offsets of the poisoned units it has carried (R331). -/
structure EngOp where
  id : Nat
  key : WKey
  ctx : Nat
  wslot : Nat
  level : Level
  cls : CClass
  kind : EngKind
  cmd : Vector Word 4
  done : Bool
  cancelled : Bool
  off : Nat
  bad : List Nat
  token : Option Nat
  pkt : DWord
  deriving DecidableEq, Repr

/-! ## Streams (R299 to R311) -/

structure Source where
  n : Nat
  timeout : Nat
  idle : Bool
  swm : Nat
  activity : Nat
  deriving DecidableEq, Repr

/-- A window entry (R299): state 0 FREE, 1 OPEN, 2 QUEUED, 3 FIRED, 4 DONE. -/
structure Window where
  entry : Nat
  index : Nat
  st : Nat
  fseq : Nat
  deriving DecidableEq, Repr

structure Stream where
  n : Nat
  desc : Nat
  ringBase : Nat
  log2n : Nat
  p : Nat
  ctx : Nat
  out : Half
  size : Nat
  slide : Nat
  late : Nat
  amend : DWord
  ovf : Nat
  ovfLog : Nat
  resn : Nat
  res : Nat
  head : Nat
  tail : Nat
  wm : Nat
  outwm : Nat
  ovfcnt : Nat
  held : Option Nat
  sources : List Source
  windows : List Window
  times : List (Nat × Nat)
  queue : List Activation
  running : Option Activation
  launch : Option Nat
  deriving DecidableEq, Repr

/-- A stream operation accepted and not yet resolved (R302); `State.sops` holds it with its number, its warp and its context. -/
inductive StreamOp where
  | srec (n src : Nat) (key : Word) (time : Nat) (payload : VReg)
  | swm (n src : Nat) (time : Nat)
  | sidle (n src : Nat)
  | spub (slot : Nat) (window : Word) (value : DWord) (amend : Bool) (n : Nat)
  | sdone (n : Nat) (window : Nat)
  | absent
  deriving DecidableEq, Repr

/-! ## The cellar (R231 to R238) -/

/-- The state a bank keeps beside a line (R235), with an open cell's queue and bindings (R236, R237). -/
structure CLine where
  n : Nat
  st : Nat
  kerr : Bool
  stray : Bool
  count : Nat
  next : Nat
  sum : Word
  arrived : Nat
  aband : Nat
  queue : List (Nat × Option Word)
  owners : List (Nat × Option WKey)
  poison : Bool
  deriving DecidableEq, Repr

/-! ## The fault unit (R297, R333, R334) -/

/-- Who waits for a resume token (R297). -/
inductive Agent where
  | split (key : WKey) (sp : Nat)
  | op (id : Nat)
  | rack (key : WKey)
  | bounce (id : Nat)
  | seq (key : WKey)
  deriving DecidableEq, Repr

/-- A record of the driver's fault queue (R297). -/
structure FRec where
  token : Nat
  ctx : Nat
  core : Nat
  wslot : Nat
  agent : Nat
  kind : Nat
  access : Nat
  va : DWord
  who : Option Agent
  written : Bool
  deriving DecidableEq, Repr

structure FaultUnit where
  area : Nat
  entry : DWord
  zeroPage : Nat
  tileSave : List (Nat × Nat)
  errBase : Nat
  errLen : Nat
  errNext : Nat
  fqBase : Nat
  fqLog : Nat
  fqHead : Word
  fqTail : Word
  recs : List FRec
  deriving DecidableEq, Repr

/-! ## The fabric, the dies, checkpoints and power (R338 to R350) -/

structure LinkSt where
  up : Bool
  replays : List Nat
  deriving DecidableEq, Repr

/-- A granule of a running checkpoint (R346, R347) with the physical pages it covers: 0 frozen, 1 copied into the reserve,
2 sent, 3 acknowledged. `copy` is the reserve granule that holds its copy. -/
structure Granule where
  ordinal : Nat
  pages : List Nat
  st : Nat
  copy : Option Nat
  peer : Nat
  deriving DecidableEq, Repr

/-- A running checkpoint (R345 to R347): `base` and `reserve` are the copy-on-write reserve, `peers` each peer's module and
destination base, and `cellar` how many granules of the reserve hold the cellar ranges. -/
structure Checkpoint where
  desc : Nat
  base : Nat
  phase : Nat
  grans : List Granule
  peers : List (Nat × DWord)
  fenced : List Nat
  reserve : Nat
  next : Nat
  drained : Nat
  skipped : Nat
  cellar : Nat
  ctxs : List Nat
  blocks : List (Nat × Nat)
  deriving DecidableEq, Repr

/-- An attestation report (R341, R349): the nonce, the firmware measurements, the harvest maps, the spare's state, the
logical-core table, and the signature over them. -/
structure Attestation where
  nonce : DWord
  firmware : List Byte
  harvest : List (BitVec 36)
  spare : Nat
  spareSt : Nat
  map : List Nat
  signature : List Byte
  deriving DecidableEq, Repr

/-- `firmware`: the firmware images that bring-up has accepted (R349). -/
structure Fabric where
  firmware : List (List Byte)
  harvest : List (BitVec 36)
  spare : Nat
  spareSt : Nat
  down : List Nat
  map : List Nat
  ready : Bool
  homeModule : Nat
  links : List LinkSt
  revoked : List Nat
  cap : Nat
  report : Option Attestation
  deriving DecidableEq, Repr

/-! ## Cached translations (R202, R295) -/

/-- A translation that some TLB or walker of the device holds: the root it was walked from, an address of its page, the level of
its leaf (0: 4 KiB, 1: 2 MiB, 2: 1 GiB), and the leaf. -/
structure TlbEntry where
  root : Nat
  va : Nat
  lvl : Nat
  leaf : Nat
  deriving DecidableEq, Repr

/-! ## The issuing chain -/

/-- How the last word of the chain ended other than by falling through. -/
inductive Ended where
  | taken
  | trapped (t : Trap)
  | waiting (w : Wait)
  | gone
  deriving DecidableEq, Repr

/-- The chain that issues: the packet, the split, the slot, the slot after the chain, the chain's words with their slots,
the word, the latch of R55 with its word, and how the word ended. -/
structure Issue where
  pkt : DWord
  sp : Nat
  slot : Nat
  next : Nat
  chain : List (Nat × Word)
  word : Word
  pfx : Option Pfx
  pword : Word
  ended : Option Ended
  deriving DecidableEq, Repr

/-! ## The machine -/

/-- `fwmem` is firmware memory (R351). `time19` is module time, which the register `time` shows (R20, R21), and `wall` the time that has passed since reset, both in units
of 1/19 ns. -/
structure State where
  clock : Nat
  time19 : Nat
  wall : Nat
  unitsPerCycle : Nat
  tick : Nat
  nextId : Nat
  inputs : List Instr
  active : Bool
  issue : Issue
  warp : Warp
  blk : Block
  core : Core
  ctx : Ctx
  warps : List Warp
  blks : List Block
  cores : List Core
  ctxs : List Ctx
  cbars : List CBar
  mem : List Host.Cell
  fwmem : List Host.Cell
  poison : List Nat
  lineKey : List (Nat × Nat)
  cellar : List Host.Cell
  clines : List CLine
  queues : List Queue
  launches : List Launch
  saved : List Saved
  directory : Nat
  names : List NameEntry
  sends : List Send
  bounces : List Bounce
  wtab : List WEntry
  hostq : List HostTaken
  ops : List EngOp
  streams : List Stream
  sops : List (Nat × WKey × Nat × StreamOp)
  fu : FaultUnit
  fab : Fabric
  ck : Option Checkpoint
  tlb : List TlbEntry
  deriving DecidableEq, Repr

/-! ## Reasons to stop -/

/-- Why the machine stops with a fault. -/
inductive Fault where
  /-- Raised by nobody: the spec gives every fault of this hardware an effect of its own (R334), which the model
  takes as a next state. Safe. -/
  | noFault
  deriving DecidableEq, Repr

/-- Why a step is refused. -/
inductive Refusal where
  /-- Raised by an arm of `exec` whose instruction has no meaning yet. Safe. -/
  | notModelled (mnemonic : String)
  deriving DecidableEq, Repr

/-! ## The machine right after reset

Before BRING_UP nothing is resident, configured or listed. The loaded records exist, and hold zeros (assumption 2). -/

def zeroVec : VReg := Vector.replicate 32 0

def Split.none : Split :=
  { st := .free, pc := 0, mask := 0, sig := 0, region := 0, saved := 0, mism := false, slot := 0, nextIssue := 0,
    runLen := 0, lost := 0, lastWin := 0, wait := Option.none, pendCall := Option.none, stamp := 0, mark := 0,
    late := [], ptrap := Option.none, folded := [], presig := 0, rmerge := Option.none, rskip := false,
    spent := false, begun := 0 }

def Warp.none : Warp :=
  { key := ⟨0, 0, 0⟩, wslot := 0, name := 0, level := .user, sregs := Vector.replicate 96 0,
    vfix := Vector.replicate 16 zeroVec, ring := Vector.replicate 176 zeroVec, w := 48, preds := 1,
    masks := Vector.replicate 8 0, q := Vector.replicate 4 0, dq := Vector.replicate 4 [], dqWait := Vector.replicate 4 [], bq := [], wbase := 0,
    links := [], wlimit := 0, cask := 0, rack := Option.none, rackNext := Option.none, rackDone := Option.none, callParks := [],
    recon := [], splits := Vector.replicate 4 Split.none, lastSplit := 0, loopHead := 0, pend := [], nfault := 0,
    ncont := 0, served := Option.none, copyFault := [], halted := false, exited := true, lastArr := [], hshare := 64 }

def Seq.none : Seq :=
  { present := false, base := 0, len := 0, pc := 0, c := Vector.replicate 8 0, sat := false, abn := false,
    stopped := false, ended := true, halted := false, number := 0, nextAt := 0, arrayFree := 0, flights := [],
    waiting := Option.none, late := Option.none }

def Block.none : Block :=
  { core := 0, slot := 0, ctx := 0, launch := 0, rank := 0, nw := 0, life := .idle, since := 0, startAt := 0, w := 48, fixed := 16,
    part := 0, acc := 0, slots := 0, bars := 0, clusterBars := false, prio := 0, waitshare := 64, card := 0,
    scratch := [], full := [], spoison := [], tiles := [], oslots := [], barrier := [], seq := Seq.none,
    inbox := Option.none, stealPosted := false, items := [], fresh := true, act := Option.none, draining := false,
    freed := false, migrate := Option.none, area := 0 }

def Core.none : Core :=
  { id := 0, accown := 0, acc := [], accBusy := false, mailbox := [], ports := Vector.replicate 4 Option.none, portAt := Vector.replicate 4 0,
    handling := Option.none, records := [], drainUntil := Option.none, drainFrom := 0, left := [], owned := [] }

def Ctx.none : Ctx :=
  { id := 0, live := false, desc := 0, root := 0, domain := 0, pkey := 0, keyid := 0, checking := false,
    debugging := false, handler := false, entry := 0, service := 0, cbase := 0, csize := 0, t1 := 200, t2 := 2000,
    lost := 0, pool := 0, poolSize := 0, areas := [], hostPage := 0, pre := .running, preSince := 0,
    preFree := false, halted := false }

def FaultUnit.none : FaultUnit :=
  { area := 0, entry := 0, zeroPage := 0, tileSave := [], errBase := 0, errLen := 0, errNext := 0, fqBase := 0,
    fqLog := 4, fqHead := 0, fqTail := 0, recs := [] }

def Fabric.none : Fabric :=
  { firmware := [], harvest := [], spare := 0, spareSt := 0, down := [], map := [], ready := false, homeModule := 0,
    links := List.replicate 18 ⟨true, []⟩, revoked := [], cap := 3000, report := Option.none }

def Issue.none : Issue :=
  { pkt := 0, sp := 0, slot := 0, next := 0, chain := [], word := 0, pfx := Option.none, pword := 0, ended := Option.none }

/-- The machine right after reset (bring-up is the event BRING_UP). -/
def State.reset : State :=
  { clock := 0, time19 := 0, wall := 0, unitsPerCycle := 10, tick := 0, nextId := 0, inputs := [], active := false,
    issue := Issue.none, warp := Warp.none, blk := Block.none, core := Core.none, ctx := Ctx.none, warps := [],
    blks := [], cores := [], ctxs := [], cbars := [], mem := [], fwmem := [], poison := [], lineKey := [], cellar := [],
    clines := [], queues := [], launches := [], saved := [], directory := 0, names := [], sends := [], bounces := [],
    wtab := [], hostq := [], ops := [], streams := [], sops := [], fu := FaultUnit.none, fab := Fabric.none, ck := Option.none,
    tlb := [] }

/-! ## The canonical form of a memory

An unlisted address reads 0 (assumption 1): physical memory, firmware memory, the cellar and a partition each list their other bytes,
addresses strictly rising. -/

/-- Addresses above `lo` strictly rising, and no listed zero. -/
def cellsFrom : Nat → List Host.Cell → Bool
  | _, [] => true
  | lo, (a, b) :: r => decide (lo ≤ a) && b != 0 && cellsFrom (a + 1) r

/-- The canonical form. -/
def cellsWf (m : List Host.Cell) : Bool := cellsFrom 0 m

/-- Every memory of a state is canonical. -/
def Memory.wf (s : State) : Bool :=
  cellsWf s.mem && cellsWf s.fwmem && cellsWf s.cellar && cellsWf s.blk.scratch && s.blks.all (fun b => cellsWf b.scratch) &&
    s.saved.all (fun v => cellsWf v.blk.scratch)

end Sys2Proof.Machine
end

