-- ==== Sys2Proof/Machine/Check.lean ====
section
/-!
DEFINITION. The checks of R58 on the words of a packet: what each word reads and writes (R9, R51, R52), which prefix
fields it may use (R27, R55), the pipe it goes to (R54), and the cause code of a word or a prefix.
-/
namespace Sys2Proof.Machine

/-- An operand of a word: a register or a group of `n` registers, read and written or not. `v` names the dq bit that may
turn it into a data queue; `newBase` is the base pair a post-increment writes; `load` and `loadU` are the destinations of
loads, absent when the flag is set (a data queue, or no result). -/
inductive Opnd where
  | u (r n : Nat) (rd wr : Bool)
  | v (r n : Nat) (rd wr : Bool) (dq : Option Nat)
  | p (r : Nat) (rd wr : Bool)
  | m (r : Nat) (rd wr : Bool)
  | q (r : Nat) (rd wr : Bool)
  | newBase (r : Nat) (wr : Bool)
  | load (r n : Nat) (absent : Bool)
  | loadU (r n : Nat) (absent : Bool)
  deriving DecidableEq, Repr

/-- What the prefix's `v4` field means to a word (R55). -/
inductive V4Use where
  | none
  | reg
  | mask
  | index
  | seed
  deriving DecidableEq, Repr

/-- What a vector word takes from a prefix (R55, R27): `z`: it has a vector destination; `rm`: it rounds; `sr`: it may
round stochastically; `need`: it needs a prefix; `use`: how many declared-use codes it accepts, from 0 (6: `.un` and
`.no` only); `dq`: the dq bits it may set. -/
structure VecInfo where
  z : Bool
  rm : Bool
  sr : Bool
  v4 : V4Use
  need : Bool
  use : Nat
  dq : BitVec 3
  deriving DecidableEq, Repr

/-- Elements of a conversion format in a lane (R92); 9 stands for a 32-bit format, which sets no limit. -/
def cvtCount (f : Nat) : Nat :=
  match f with
  | 0 => 9
  | 5 => 9
  | 6 => 9
  | 1 => 2
  | 2 => 2
  | 7 => 2
  | 8 => 2
  | _ => 4

/-- A special register named by a form of `srd`, `swr`, `psrd` or `pswr` (R20, R79, R203). -/
def specialOk (firmware wide write : Bool) (r : Nat) : Bool :=
  let long := r = 0x08 || r = 0x0A || r = 0x10 || r = 0x12 || (decide (0x14 ≤ r) && decide (r ≤ 0x17))
  let mapped := decide (1 ≤ r) && (decide (r ≤ 0x12) || (decide (0x14 ≤ r) && decide (r ≤ 0x17)))
  let hidden := r = 0x11 || r = 0x12
  let userWrites := r = 0x09 || (decide (0x14 ≤ r) && decide (r ≤ 0x17))
  mapped && (long == wide) && (firmware || !hidden) &&
    (!write || (if firmware then decide (r ≥ 8) else userWrites))

/-- The operands of a word (R9, R51, R52, and the entries of 05_ to 07_). -/
def operands : Instr → List Opnd
  | .sadd d a x => [.u (d.toNat) (1 + x.toNat) true true, .u (a.toNat) (1 + x.toNat) true false]
  | .ssub d a x => [.u (d.toNat) (1 + x.toNat) true true, .u (a.toNat) (1 + x.toNat) true false]
  | .smul d a x => [.u (d.toNat) (1 + x.toNat) true true, .u (a.toNat) (1 + x.toNat) true false]
  | .smulhI32 d a => [.u (d.toNat) (1) true true, .u (a.toNat) (1) true false]
  | .smulhN32 d a => [.u (d.toNat) (1) true true, .u (a.toNat) (1) true false]
  | .sdivI32 d a => [.u (d.toNat) (1) true true, .u (a.toNat) (1) true false]
  | .sdivN32 d a => [.u (d.toNat) (1) true true, .u (a.toNat) (1) true false]
  | .sremI32 d a => [.u (d.toNat) (1) true true, .u (a.toNat) (1) true false]
  | .sremN32 d a => [.u (d.toNat) (1) true true, .u (a.toNat) (1) true false]
  | .sminI d a x => [.u (d.toNat) (1 + x.toNat) true true, .u (a.toNat) (1 + x.toNat) true false]
  | .sminN d a x => [.u (d.toNat) (1 + x.toNat) true true, .u (a.toNat) (1 + x.toNat) true false]
  | .smaxI d a x => [.u (d.toNat) (1 + x.toNat) true true, .u (a.toNat) (1 + x.toNat) true false]
  | .smaxN d a x => [.u (d.toNat) (1 + x.toNat) true true, .u (a.toNat) (1 + x.toNat) true false]
  | .sand d a x => [.u (d.toNat) (1 + x.toNat) true true, .u (a.toNat) (1 + x.toNat) true false]
  | .sor d a x => [.u (d.toNat) (1 + x.toNat) true true, .u (a.toNat) (1 + x.toNat) true false]
  | .sxor d a x => [.u (d.toNat) (1 + x.toNat) true true, .u (a.toNat) (1 + x.toNat) true false]
  | .sandn d a x => [.u (d.toNat) (1 + x.toNat) true true, .u (a.toNat) (1 + x.toNat) true false]
  | .sshl d a x => [.u (d.toNat) (1 + x.toNat) true true, .u (a.toNat) (1 + x.toNat) true false]
  | .sshr d a x => [.u (d.toNat) (1 + x.toNat) true true, .u (a.toNat) (1 + x.toNat) true false]
  | .ssar d a x => [.u (d.toNat) (1 + x.toNat) true true, .u (a.toNat) (1 + x.toNat) true false]
  | .sbfe d a x => [.u (d.toNat) (1 + x.toNat) true true, .u (a.toNat) (1) true false]
  | .sbfi d a => [.u (d.toNat) (1) true true, .u (a.toNat) (2) true false]
  | .sclz d a x => [.u (d.toNat) (1 + x.toNat) false true, .u (a.toNat) (1 + x.toNat) true false]
  | .spopc d a x => [.u (d.toNat) (1 + x.toNat) false true, .u (a.toNat) (1 + x.toNat) true false]
  | .smov d a x => [.u (d.toNat) (1 + x.toNat) false true, .u (a.toNat) (1 + x.toNat) true false]
  | .ssel d a x p => [.u (d.toNat) (1 + x.toNat) true true, .u (a.toNat) (1 + x.toNat) true false, .p (p.toNat) true false]
  | .saddi d _ => [.u (d.toNat) (1) true true]
  | .smovi d _ => [.u (d.toNat) (1) false true]
  | .smovh d _ => [.u (d.toNat) (1) true true]
  | .scmp p _ a b x => [.p (p.toNat) false true, .u (a.toNat) (1 + x.toNat) true false, .u (b.toNat) (1 + x.toNat) true false]
  | .scmpi p _ a _ x => [.p (p.toNat) false true, .u (a.toNat) (1 + x.toNat) true false]
  | .srd d _ => [.u (d.toNat) (1) false true]
  | .srdD d _ => [.u (d.toNat) (2) false true]
  | .srdV v => [.v (v.toNat) (1) false true none]
  | .swr _ a => [.u (a.toNat) (1) true false]
  | .swrD r a => [.u (a.toNat) (2) true false, .q (r.toNat) false true]
  | .plog p b a _ => [.p (p.toNat) false true, .p (a.toNat) true false, .p (b.toNat) true false]
  | .plogM p b a _ => [.m (p.toNat) false true, .m (a.toNat) true false, .m (b.toNat) true false]
  | .bra p _ => [.p (p.toNat) true false]
  | .braNot p _ => [.p (p.toNat) true false]
  | .brcAny m _ => [.m (m.toNat) true false]
  | .brcAll m _ => [.m (m.toNat) true false]
  | .brcNone m _ => [.m (m.toNat) true false]
  | .vbra m _ => [.m (m.toNat) true false]
  | .vbraNot m _ => [.m (m.toNat) true false]
  | .calli n _ => [.v (n.toNat) (2) true false none]
  | .await p _ => [.p (p.toNat) false true]
  | .bsync p _ => [.p (p.toNat) false true]
  | .bmemb _ a _ => [.u (a.toNat) (1) true false]
  | .cbawait p _ => [.p (p.toNat) false true]
  | .jtake g _ => [.u (g.toNat) (2) true false, .u (g.toNat + 2) (2) false true]
  | .jspawn g => [.u (g.toNat) (4) true false, .u (g.toNat + 2) (1) false true]
  | .jpop g p => [.u (g.toNat) (2) true false, .u (g.toNat + 2) (2) false true, .p (p.toNat) false true]
  | .jsteal g => [.u (g.toNat) (1) true false, .u (g.toNat + 2) (1) false true]
  | .lrefill v m => [.v (v.toNat) (1) true true none, .m (m.toNat) true true]
  | .vadd d a b => [.v (d.toNat) (1) false true none, .v (a.toNat) (1) true false (some 2), .v (b.toNat) (1) true false (some 1)]
  | .vsub d a b => [.v (d.toNat) (1) false true none, .v (a.toNat) (1) true false (some 2), .v (b.toNat) (1) true false (some 1)]
  | .vmul d a b => [.v (d.toNat) (1) false true none, .v (a.toNat) (1) true false (some 2), .v (b.toNat) (1) true false (some 1)]
  | .vmulhI32 d a b => [.v (d.toNat) (1) false true none, .v (a.toNat) (1) true false (some 2), .v (b.toNat) (1) true false (some 1)]
  | .vmulhN32 d a b => [.v (d.toNat) (1) false true none, .v (a.toNat) (1) true false (some 2), .v (b.toNat) (1) true false (some 1)]
  | .vmad d a b => [.v (d.toNat) (1) false true none, .v (a.toNat) (1) true false (some 2), .v (b.toNat) (1) true false (some 1)]
  | .vabsdI32 d a b => [.v (d.toNat) (1) false true none, .v (a.toNat) (1) true false (some 2), .v (b.toNat) (1) true false (some 1)]
  | .vand d a b => [.v (d.toNat) (1) false true none, .v (a.toNat) (1) true false (some 2), .v (b.toNat) (1) true false (some 1)]
  | .vor d a b => [.v (d.toNat) (1) false true none, .v (a.toNat) (1) true false (some 2), .v (b.toNat) (1) true false (some 1)]
  | .vxor d a b => [.v (d.toNat) (1) false true none, .v (a.toNat) (1) true false (some 2), .v (b.toNat) (1) true false (some 1)]
  | .vandn d a b => [.v (d.toNat) (1) false true none, .v (a.toNat) (1) true false (some 2), .v (b.toNat) (1) true false (some 1)]
  | .vshl d a b => [.v (d.toNat) (1) false true none, .v (a.toNat) (1) true false (some 2), .v (b.toNat) (1) true false (some 1)]
  | .vshr d a b => [.v (d.toNat) (1) false true none, .v (a.toNat) (1) true false (some 2), .v (b.toNat) (1) true false (some 1)]
  | .vsar d a b => [.v (d.toNat) (1) false true none, .v (a.toNat) (1) true false (some 2), .v (b.toNat) (1) true false (some 1)]
  | .vclz d a => [.v (d.toNat) (1) false true none, .v (a.toNat) (1) true false (some 2)]
  | .vpopc d a => [.v (d.toNat) (1) false true none, .v (a.toNat) (1) true false (some 2)]
  | .vaddi d a _ => [.v (d.toNat) (1) false true none, .v (a.toNat) (1) true false (some 2)]
  | .vmovi d _ => [.v (d.toNat) (1) false true none]
  | .vmovh d _ => [.v (d.toNat) (1) true true none]
  | .vaddH2 d a b => [.v (d.toNat) (1) false true none, .v (a.toNat) (1) true false (some 2), .v (b.toNat) (1) true false (some 1)]
  | .vaddsH2 d a b => [.v (d.toNat) (1) false true none, .v (a.toNat) (1) true false (some 2), .v (b.toNat) (1) true false (some 1)]
  | .vsubH2 d a b => [.v (d.toNat) (1) false true none, .v (a.toNat) (1) true false (some 2), .v (b.toNat) (1) true false (some 1)]
  | .vsubsH2 d a b => [.v (d.toNat) (1) false true none, .v (a.toNat) (1) true false (some 2), .v (b.toNat) (1) true false (some 1)]
  | .vminH2 d a b => [.v (d.toNat) (1) false true none, .v (a.toNat) (1) true false (some 2), .v (b.toNat) (1) true false (some 1)]
  | .vmaxH2 d a b => [.v (d.toNat) (1) false true none, .v (a.toNat) (1) true false (some 2), .v (b.toNat) (1) true false (some 1)]
  | .vacsH2 d a b => [.v (d.toNat) (2) true true none, .v (a.toNat) (1) true false (some 2), .v (b.toNat) (1) true false (some 1)]
  | .vaddB4 d a b => [.v (d.toNat) (1) false true none, .v (a.toNat) (1) true false (some 2), .v (b.toNat) (1) true false (some 1)]
  | .vaddsB4 d a b => [.v (d.toNat) (1) false true none, .v (a.toNat) (1) true false (some 2), .v (b.toNat) (1) true false (some 1)]
  | .vminB4 d a b => [.v (d.toNat) (1) false true none, .v (a.toNat) (1) true false (some 2), .v (b.toNat) (1) true false (some 1)]
  | .vmaxB4 d a b => [.v (d.toNat) (1) false true none, .v (a.toNat) (1) true false (some 2), .v (b.toNat) (1) true false (some 1)]
  | .vabsdB4 d a b => [.v (d.toNat) (1) false true none, .v (a.toNat) (1) true false (some 2), .v (b.toNat) (1) true false (some 1)]
  | .vdot4 d a b _ _ _ => [.v (d.toNat) (1) true true none, .v (a.toNat) (1) true false (some 2), .v (b.toNat) (1) true false (some 1)]
  | .vdot8 d a b _ _ _ => [.v (d.toNat) (1) true true none, .v (a.toNat) (1) true false (some 2), .v (b.toNat) (1) true false (some 1)]
  | .vcmpEqI32 m a b => [.m (m.toNat) false true, .v (a.toNat) (1) true false (some 2), .v (b.toNat) (1) true false (some 1)]
  | .vcmpNeI32 m a b => [.m (m.toNat) false true, .v (a.toNat) (1) true false (some 2), .v (b.toNat) (1) true false (some 1)]
  | .vcmpLtI32 m a b => [.m (m.toNat) false true, .v (a.toNat) (1) true false (some 2), .v (b.toNat) (1) true false (some 1)]
  | .vcmpLeI32 m a b => [.m (m.toNat) false true, .v (a.toNat) (1) true false (some 2), .v (b.toNat) (1) true false (some 1)]
  | .vcmpLtN32 m a b => [.m (m.toNat) false true, .v (a.toNat) (1) true false (some 2), .v (b.toNat) (1) true false (some 1)]
  | .vcmpLeN32 m a b => [.m (m.toNat) false true, .v (a.toNat) (1) true false (some 2), .v (b.toNat) (1) true false (some 1)]
  | .vsel d a b => [.v (d.toNat) (1) false true none, .v (a.toNat) (1) true false (some 2), .v (b.toNat) (1) true false (some 1)]
  | .vmov d a => [.v (d.toNat) (1) false true none, .v (a.toNat) (1) true false (some 2)]
  | .vbcast d a _ => [.v (d.toNat) (1) false true none, .v (a.toNat) (1) true false (some 2)]
  | .vminI32 d a b => [.v (d.toNat) (1) false true none, .v (a.toNat) (1) true false (some 2), .v (b.toNat) (1) true false (some 1)]
  | .vminN32 d a b => [.v (d.toNat) (1) false true none, .v (a.toNat) (1) true false (some 2), .v (b.toNat) (1) true false (some 1)]
  | .vmaxI32 d a b => [.v (d.toNat) (1) false true none, .v (a.toNat) (1) true false (some 2), .v (b.toNat) (1) true false (some 1)]
  | .vmaxN32 d a b => [.v (d.toNat) (1) false true none, .v (a.toNat) (1) true false (some 2), .v (b.toNat) (1) true false (some 1)]
  | .vbfe d a b => [.v (d.toNat) (1) false true none, .v (a.toNat) (1) true false (some 2), .u (b.toNat) (1) true false]
  | .vbfi d a b => [.v (d.toNat) (1) true true none, .v (a.toNat) (1) true false (some 2), .u (b.toNat) (1) true false]
  | .vpackH2 d a b => [.v (d.toNat) (1) false true none, .v (a.toNat) (2) true false none, .u (b.toNat) (1) true false]
  | .vpackB4 d a b => [.v (d.toNat) (1) false true none, .v (a.toNat) (4) true false none, .u (b.toNat) (1) true false]
  | .vunpackI16 d a => [.v (d.toNat) (2) false true none, .v (a.toNat) (1) true false (some 2)]
  | .vunpackN16 d a => [.v (d.toNat) (2) false true none, .v (a.toNat) (1) true false (some 2)]
  | .vunpackI8 d a => [.v (d.toNat) (4) false true none, .v (a.toNat) (1) true false (some 2)]
  | .vunpackN8 d a => [.v (d.toNat) (4) false true none, .v (a.toNat) (1) true false (some 2)]
  | .vfaddF32 d a b => [.v (d.toNat) (1) false true none, .v (a.toNat) (1) true false (some 2), .v (b.toNat) (1) true false (some 1)]
  | .vfsubF32 d a b => [.v (d.toNat) (1) false true none, .v (a.toNat) (1) true false (some 2), .v (b.toNat) (1) true false (some 1)]
  | .vfmulF32 d a b => [.v (d.toNat) (1) false true none, .v (a.toNat) (1) true false (some 2), .v (b.toNat) (1) true false (some 1)]
  | .vfminF32 d a b => [.v (d.toNat) (1) false true none, .v (a.toNat) (1) true false (some 2), .v (b.toNat) (1) true false (some 1)]
  | .vfmaxF32 d a b => [.v (d.toNat) (1) false true none, .v (a.toNat) (1) true false (some 2), .v (b.toNat) (1) true false (some 1)]
  | .vfabsF32 d a => [.v (d.toNat) (1) false true none, .v (a.toNat) (1) true false (some 2)]
  | .vfnegF32 d a => [.v (d.toNat) (1) false true none, .v (a.toNat) (1) true false (some 2)]
  | .vfcsgnF32 d a b => [.v (d.toNat) (1) false true none, .v (a.toNat) (1) true false (some 2), .v (b.toNat) (1) true false (some 1)]
  | .vfaddH2 d a b => [.v (d.toNat) (1) false true none, .v (a.toNat) (1) true false (some 2), .v (b.toNat) (1) true false (some 1)]
  | .vfsubH2 d a b => [.v (d.toNat) (1) false true none, .v (a.toNat) (1) true false (some 2), .v (b.toNat) (1) true false (some 1)]
  | .vfmulH2 d a b => [.v (d.toNat) (1) false true none, .v (a.toNat) (1) true false (some 2), .v (b.toNat) (1) true false (some 1)]
  | .vfminH2 d a b => [.v (d.toNat) (1) false true none, .v (a.toNat) (1) true false (some 2), .v (b.toNat) (1) true false (some 1)]
  | .vfmaxH2 d a b => [.v (d.toNat) (1) false true none, .v (a.toNat) (1) true false (some 2), .v (b.toNat) (1) true false (some 1)]
  | .vfabsH2 d a => [.v (d.toNat) (1) false true none, .v (a.toNat) (1) true false (some 2)]
  | .vfnegH2 d a => [.v (d.toNat) (1) false true none, .v (a.toNat) (1) true false (some 2)]
  | .vfcsgnH2 d a b => [.v (d.toNat) (1) false true none, .v (a.toNat) (1) true false (some 2), .v (b.toNat) (1) true false (some 1)]
  | .vfaddBf2 d a b => [.v (d.toNat) (1) false true none, .v (a.toNat) (1) true false (some 2), .v (b.toNat) (1) true false (some 1)]
  | .vfsubBf2 d a b => [.v (d.toNat) (1) false true none, .v (a.toNat) (1) true false (some 2), .v (b.toNat) (1) true false (some 1)]
  | .vfmulBf2 d a b => [.v (d.toNat) (1) false true none, .v (a.toNat) (1) true false (some 2), .v (b.toNat) (1) true false (some 1)]
  | .vfminBf2 d a b => [.v (d.toNat) (1) false true none, .v (a.toNat) (1) true false (some 2), .v (b.toNat) (1) true false (some 1)]
  | .vfmaxBf2 d a b => [.v (d.toNat) (1) false true none, .v (a.toNat) (1) true false (some 2), .v (b.toNat) (1) true false (some 1)]
  | .vfabsBf2 d a => [.v (d.toNat) (1) false true none, .v (a.toNat) (1) true false (some 2)]
  | .vfnegBf2 d a => [.v (d.toNat) (1) false true none, .v (a.toNat) (1) true false (some 2)]
  | .vfcsgnBf2 d a b => [.v (d.toNat) (1) false true none, .v (a.toNat) (1) true false (some 2), .v (b.toNat) (1) true false (some 1)]
  | .vffma d a b _ => [.v (d.toNat) (1) true true none, .v (a.toNat) (1) true false (some 2), .v (b.toNat) (1) true false (some 1)]
  | .vffms d a b _ => [.v (d.toNat) (1) true true none, .v (a.toNat) (1) true false (some 2), .v (b.toNat) (1) true false (some 1)]
  | .vfnma d a b _ => [.v (d.toNat) (1) true true none, .v (a.toNat) (1) true false (some 2), .v (b.toNat) (1) true false (some 1)]
  | .vcvt d a _ _ _ => [.v (d.toNat) (1) true true none, .v (a.toNat) (1) true false (some 2)]
  | .vfrcp d a => [.v (d.toNat) (1) false true none, .v (a.toNat) (1) true false (some 2)]
  | .vfrsq d a => [.v (d.toNat) (1) false true none, .v (a.toNat) (1) true false (some 2)]
  | .vfsqrt d a => [.v (d.toNat) (1) false true none, .v (a.toNat) (1) true false (some 2)]
  | .vfexp2 d a => [.v (d.toNat) (1) false true none, .v (a.toNat) (1) true false (some 2)]
  | .vflog2 d a => [.v (d.toNat) (1) false true none, .v (a.toNat) (1) true false (some 2)]
  | .vfsin d a => [.v (d.toNat) (1) false true none, .v (a.toNat) (1) true false (some 2)]
  | .vfcos d a => [.v (d.toNat) (1) false true none, .v (a.toNat) (1) true false (some 2)]
  | .vftanh d a => [.v (d.toNat) (1) false true none, .v (a.toNat) (1) true false (some 2)]
  | .vfsigm d a => [.v (d.toNat) (1) false true none, .v (a.toNat) (1) true false (some 2)]
  | .vfcmpF32 m a b _ => [.m (m.toNat) false true, .v (a.toNat) (1) true false (some 2), .v (b.toNat) (1) true false (some 1)]
  | .vfcmpPacked d a b _ _ => [.v (d.toNat) (1) false true none, .v (a.toNat) (1) true false (some 2), .v (b.toNat) (1) true false (some 1)]
  | .vhad d a => [.v (d.toNat) (1) false true none, .v (a.toNat) (1) true false (some 2)]
  | .vkflip d a b => [.v (d.toNat) (1) false true none, .v (a.toNat) (1) true false (some 2), .u (b.toNat) (2) true false]
  | .vamax d a => [.v (d.toNat) (1) false true none, .v (a.toNat) (1) true false (some 2)]
  | .vqmx d a _ => [.v (d.toNat) (1) false true none, .v (a.toNat) (1) true false (some 2)]
  | .vdqmx d a _ => [.v (d.toNat) (1) false true none, .v (a.toNat) (1) true false (some 2)]
  | .vshflIdx d a b => [.v (d.toNat) (1) false true none, .v (a.toNat) (1) true false (some 2), .v (b.toNat) (1) true false (some 1)]
  | .vshflXor d a _ => [.v (d.toNat) (1) false true none, .v (a.toNat) (1) true false (some 2)]
  | .vshflUp d a _ => [.v (d.toNat) (1) false true none, .v (a.toNat) (1) true false (some 2)]
  | .vshflDn d a _ => [.v (d.toNat) (1) false true none, .v (a.toNat) (1) true false (some 2)]
  | .vshflIdxH2 d a b => [.v (d.toNat) (1) false true none, .v (a.toNat) (1) true false (some 2), .v (b.toNat) (1) true false (some 1)]
  | .vmatch d a => [.v (d.toNat) (1) false true none, .v (a.toNat) (1) true false (some 2)]
  | .vmatchNum d a => [.v (d.toNat) (1) false true none, .v (a.toNat) (1) true false (some 2)]
  | .vballot d a => [.v (d.toNat) (1) false true none, .v (a.toNat) (1) true false (some 2)]
  | .vlaneid d => [.v (d.toNat) (1) false true none]
  | .vredsumI32 d a => [.v (d.toNat) (1) false true none, .v (a.toNat) (1) true false (some 2)]
  | .vredsumF32 d a => [.v (d.toNat) (1) false true none, .v (a.toNat) (1) true false (some 2)]
  | .vredmaxI32 d a => [.v (d.toNat) (1) false true none, .v (a.toNat) (1) true false (some 2)]
  | .vredmaxN32 d a => [.v (d.toNat) (1) false true none, .v (a.toNat) (1) true false (some 2)]
  | .vredmaxF32 d a => [.v (d.toNat) (1) false true none, .v (a.toNat) (1) true false (some 2)]
  | .vredminI32 d a => [.v (d.toNat) (1) false true none, .v (a.toNat) (1) true false (some 2)]
  | .vredminN32 d a => [.v (d.toNat) (1) false true none, .v (a.toNat) (1) true false (some 2)]
  | .vredminF32 d a => [.v (d.toNat) (1) false true none, .v (a.toNat) (1) true false (some 2)]
  | .vscanI32 d a => [.v (d.toNat) (1) false true none, .v (a.toNat) (1) true false (some 2)]
  | .vscanF32 d a => [.v (d.toNat) (1) false true none, .v (a.toNat) (1) true false (some 2)]
  | .vscanExI32 d a => [.v (d.toNat) (1) false true none, .v (a.toNat) (1) true false (some 2)]
  | .vscanExF32 d a => [.v (d.toNat) (1) false true none, .v (a.toNat) (1) true false (some 2)]
  | .vrdl d a b => [.u (d.toNat) (1) false true, .v (a.toNat) (1) true false (some 2), .u (b.toNat) (1) true false]
  | .vwrl d b => [.v (d.toNat) (1) false true none, .u (b.toNat) (1) true false]
  | .vrdlD d a b => [.u (d.toNat) (2) false true, .v (a.toNat) (2) true false none, .u (b.toNat) (1) true false]
  | .vwrlD d b => [.v (d.toNat) (2) false true none, .u (b.toNat) (2) true false]
  | .vld v p m z q i => [.u (2 * p.toNat) (2) true false, .newBase (2 * p.toNat) (m = 1 || m = 2), .q (0x14 + i.toNat / 4) (m = 2) false, .load (v.toNat) (if z = 3 then 2 else 1) (q = 3)]
  | .vst v p m z _ i => [.u (2 * p.toNat) (2) true false, .newBase (2 * p.toNat) (m = 1 || m = 2), .q (0x14 + i.toNat / 4) (m = 2) false, .v (v.toNat) (if z = 3 then 2 else 1) true false none]
  | .sld v p m z q i => [.u (2 * p.toNat) (2) true false, .newBase (2 * p.toNat) (m = 1 || m = 2), .q (0x14 + i.toNat / 4) (m = 2) false, .loadU (v.toNat) (if z = 3 then 2 else 1) (q = 3)]
  | .sst v p m z _ i => [.u (2 * p.toNat) (2) true false, .newBase (2 * p.toNat) (m = 1 || m = 2), .q (0x14 + i.toNat / 4) (m = 2) false, .u (v.toNat) (if z = 3 then 2 else 1) true false]
  | .vgld v p _ z q _ => [.u (2 * p.toNat) (2) true false, .load (v.toNat) (if z = 3 then 2 else 1) (q = 3)]
  | .vgst v p _ z _ _ => [.u (2 * p.toNat) (2) true false, .v (v.toNat) (if z = 3 then 2 else 1) true false none]
  | .vatom v p o _ _ y => [.u (2 * p.toNat) (2) true false, .v (v.toNat) ((if o = 7 then 2 else 1) * (if y = 1 then 2 else 1)) true false none, .load (v.toNat) (if y = 1 then 2 else 1) false]
  | .catom v p o _ n y => [.u (2 * p.toNat) (2) true false, .v (v.toNat) ((if o = 7 then 2 else 1) * (if y = 1 then 2 else 1)) true false none, .load (v.toNat) (if y = 1 then 2 else 1) (n = 1)]
  | .cfaddo v p s => [.u (2 * p.toNat) (2) true false, .v (v.toNat) (1) true false none, .u (s.toNat) (1) true false]
  | .cline v p _ => [.u (2 * p.toNat) (2) true false, .v (v.toNat) (1) true false none]
  | .cabandon p s => [.u (2 * p.toNat) (2) true false, .u (s.toNat) (1) true false]
  | .accrd v _ _ => [.v (v.toNat) (1) false true none]
  | .accwr v _ _ => [.v (v.toNat) (1) true false none]
  | .cpy g _ _ _ => [.u (g.toNat) (4) true false]
  | .cpyo g => [.u (g.toNat) (4) true false]
  | .cpyr g => [.u (g.toNat) (4) true false, .u (g.toNat + 3) (1) false true]
  | .cpyp g => [.u (g.toNat) (4) true false]
  | .oclaim g => [.u (g.toNat) (4) true false]
  | .orel g _ => [.u (g.toNat) (4) true false]
  | .ohdr g => [.u (g.toNat) (4) true false, .u (g.toNat + 1) (1) false true, .u (g.toNat + 2) (2) false true]
  | .ofill g v => [.u (g.toNat) (4) true false, .v (v.toNat) (1) true false none]
  | .nsig g _ => [.u (g.toNat) (4) true false, .u (g.toNat + 3) (1) false true]
  | .nwake g _ => [.u (g.toNat) (4) true false, .u (g.toNat + 3) (1) false true]
  | .ndep g _ _ => [.u (g.toNat) (4) true false, .u (g.toNat + 3) (1) false true]
  | .nrd g _ _ => [.u (g.toNat) (4) true false, .u (g.toNat + 2) (2) false true]
  | .njoin g => [.u (g.toNat) (4) true false, .u (g.toNat + 3) (1) false true]
  | .nwait g _ => [.u (g.toNat) (4) true false, .u (g.toNat + 2) (2) false true]
  | .nself g => [.u (g.toNat) (4) true false, .u (g.toNat + 3) (1) false true]
  | .wwait g _ => [.u (g.toNat) (4) true false, .u (g.toNat + 3) (1) false true]
  | .wwake g => [.u (g.toNat) (4) true false, .u (g.toNat + 3) (1) false true]
  | .srec g v => [.u (g.toNat) (4) true false, .u (g.toNat + 0) (1) false true, .v (v.toNat) (1) true false none]
  | .swm g => [.u (g.toNat) (4) true false, .u (g.toNat + 0) (1) false true]
  | .sidle g => [.u (g.toNat) (4) true false, .u (g.toNat + 0) (1) false true]
  | .swin g => [.u (g.toNat) (4) true false, .u (g.toNat + 0) (4) false true]
  | .swinL g v => [.u (g.toNat) (4) true false, .u (g.toNat + 0) (4) false true, .v (v.toNat) (1) false true none]
  | .spub g => [.u (g.toNat) (4) true false, .u (g.toNat + 0) (1) false true]
  | .samend g => [.u (g.toNat) (4) true false, .u (g.toNat + 0) (1) false true]
  | .sdone g => [.u (g.toNat) (4) true false, .u (g.toNat + 0) (1) false true]
  | .mpost g => [.u (g.toNat) (4) true false, .u (g.toNat + 2) (1) false true]
  | .msend g => [.u (g.toNat) (4) true false, .u (g.toNat + 3) (1) false true]
  | .mstat g p => [.u (g.toNat) (4) true false, .u (g.toNat + 0) (4) false true, .p (p.toNat) false true]
  | .fsreq g _ => [.u (g.toNat) (4) true false, .u (g.toNat + 3) (1) false true]
  | .drain a d => [.u (a.toNat) (2) true false, .u (d.toNat) (1) false true]
  | .wsnap a b _ => [.u (a.toNat) (2) true false, .u (b.toNat) (1) true true]
  | .accspl p _ => [.u (2 * p.toNat) (2) true false]
  | .accfil p _ => [.u (2 * p.toNat) (2) true false]
  | .mapset a p => [.u (a.toNat) (2) true false, .p (p.toNat) false true]
  | .tlbinv a _ => [.u (a.toNat) (2) true false]
  | .psrd d _ => [.u (d.toNat) (1) false true]
  | .psrdD d _ => [.u (d.toNat) (2) false true]
  | .pswr _ a => [.u (a.toNat) (1) true false]
  | .pswrD r a => [.u (a.toNat) (2) true false, .q (r.toNat) false true]
  | _ => []

/-- The vector words (R55). -/
def vecInfo : Instr → Option VecInfo
  | .vadd _ _ _ => some ⟨true, false, false, .none, false, 0, 6⟩
  | .vsub _ _ _ => some ⟨true, false, false, .none, false, 0, 6⟩
  | .vmul _ _ _ => some ⟨true, false, false, .none, false, 0, 6⟩
  | .vmulhI32 _ _ _ => some ⟨true, false, false, .none, false, 0, 6⟩
  | .vmulhN32 _ _ _ => some ⟨true, false, false, .none, false, 0, 6⟩
  | .vmad _ _ _ => some ⟨true, false, false, .reg, true, 0, 7⟩
  | .vabsdI32 _ _ _ => some ⟨true, false, false, .none, false, 0, 6⟩
  | .vand _ _ _ => some ⟨true, false, false, .none, false, 0, 6⟩
  | .vor _ _ _ => some ⟨true, false, false, .none, false, 0, 6⟩
  | .vxor _ _ _ => some ⟨true, false, false, .none, false, 0, 6⟩
  | .vandn _ _ _ => some ⟨true, false, false, .none, false, 0, 6⟩
  | .vshl _ _ _ => some ⟨true, false, false, .none, false, 0, 6⟩
  | .vshr _ _ _ => some ⟨true, false, false, .none, false, 0, 6⟩
  | .vsar _ _ _ => some ⟨true, false, false, .none, false, 0, 6⟩
  | .vclz _ _ => some ⟨true, false, false, .none, false, 0, 4⟩
  | .vpopc _ _ => some ⟨true, false, false, .none, false, 0, 4⟩
  | .vaddi _ _ _ => some ⟨true, false, false, .none, false, 0, 4⟩
  | .vmovi _ _ => some ⟨true, false, false, .none, false, 0, 0⟩
  | .vmovh _ _ => some ⟨true, false, false, .none, false, 0, 0⟩
  | .vaddH2 _ _ _ => some ⟨true, false, false, .none, false, 0, 6⟩
  | .vaddsH2 _ _ _ => some ⟨true, false, false, .none, false, 0, 6⟩
  | .vsubH2 _ _ _ => some ⟨true, false, false, .none, false, 0, 6⟩
  | .vsubsH2 _ _ _ => some ⟨true, false, false, .none, false, 0, 6⟩
  | .vminH2 _ _ _ => some ⟨true, false, false, .none, false, 0, 6⟩
  | .vmaxH2 _ _ _ => some ⟨true, false, false, .none, false, 0, 6⟩
  | .vacsH2 _ _ _ => some ⟨true, false, false, .none, false, 0, 6⟩
  | .vaddB4 _ _ _ => some ⟨true, false, false, .none, false, 0, 6⟩
  | .vaddsB4 _ _ _ => some ⟨true, false, false, .none, false, 0, 6⟩
  | .vminB4 _ _ _ => some ⟨true, false, false, .none, false, 0, 6⟩
  | .vmaxB4 _ _ _ => some ⟨true, false, false, .none, false, 0, 6⟩
  | .vabsdB4 _ _ _ => some ⟨true, false, false, .none, false, 0, 6⟩
  | .vdot4 _ _ _ _ _ _ => some ⟨true, false, false, .none, false, 0, 6⟩
  | .vdot8 _ _ _ _ _ _ => some ⟨true, false, false, .none, false, 0, 6⟩
  | .vcmpEqI32 _ _ _ => some ⟨false, false, false, .none, false, 0, 6⟩
  | .vcmpNeI32 _ _ _ => some ⟨false, false, false, .none, false, 0, 6⟩
  | .vcmpLtI32 _ _ _ => some ⟨false, false, false, .none, false, 0, 6⟩
  | .vcmpLeI32 _ _ _ => some ⟨false, false, false, .none, false, 0, 6⟩
  | .vcmpLtN32 _ _ _ => some ⟨false, false, false, .none, false, 0, 6⟩
  | .vcmpLeN32 _ _ _ => some ⟨false, false, false, .none, false, 0, 6⟩
  | .vsel _ _ _ => some ⟨true, false, false, .mask, true, 0, 6⟩
  | .vmov _ _ => some ⟨true, false, false, .none, false, 0, 4⟩
  | .vbcast _ _ _ => some ⟨true, false, false, .none, false, 0, 4⟩
  | .vminI32 _ _ _ => some ⟨true, false, false, .none, false, 0, 6⟩
  | .vminN32 _ _ _ => some ⟨true, false, false, .none, false, 0, 6⟩
  | .vmaxI32 _ _ _ => some ⟨true, false, false, .none, false, 0, 6⟩
  | .vmaxN32 _ _ _ => some ⟨true, false, false, .none, false, 0, 6⟩
  | .vbfe _ _ _ => some ⟨true, false, false, .none, false, 0, 4⟩
  | .vbfi _ _ _ => some ⟨true, false, false, .none, false, 0, 4⟩
  | .vpackH2 _ _ _ => some ⟨true, false, false, .none, false, 0, 0⟩
  | .vpackB4 _ _ _ => some ⟨true, false, false, .none, false, 0, 0⟩
  | .vunpackI16 _ _ => some ⟨true, false, false, .none, false, 0, 4⟩
  | .vunpackN16 _ _ => some ⟨true, false, false, .none, false, 0, 4⟩
  | .vunpackI8 _ _ => some ⟨true, false, false, .none, false, 0, 4⟩
  | .vunpackN8 _ _ => some ⟨true, false, false, .none, false, 0, 4⟩
  | .vfaddF32 _ _ _ => some ⟨true, true, false, .none, false, 0, 6⟩
  | .vfsubF32 _ _ _ => some ⟨true, true, false, .none, false, 0, 6⟩
  | .vfmulF32 _ _ _ => some ⟨true, true, false, .none, false, 0, 6⟩
  | .vfminF32 _ _ _ => some ⟨true, false, false, .none, false, 0, 6⟩
  | .vfmaxF32 _ _ _ => some ⟨true, false, false, .none, false, 0, 6⟩
  | .vfabsF32 _ _ => some ⟨true, false, false, .none, false, 0, 4⟩
  | .vfnegF32 _ _ => some ⟨true, false, false, .none, false, 0, 4⟩
  | .vfcsgnF32 _ _ _ => some ⟨true, false, false, .none, false, 0, 6⟩
  | .vfaddH2 _ _ _ => some ⟨true, true, false, .none, false, 0, 6⟩
  | .vfsubH2 _ _ _ => some ⟨true, true, false, .none, false, 0, 6⟩
  | .vfmulH2 _ _ _ => some ⟨true, true, false, .none, false, 0, 6⟩
  | .vfminH2 _ _ _ => some ⟨true, false, false, .none, false, 0, 6⟩
  | .vfmaxH2 _ _ _ => some ⟨true, false, false, .none, false, 0, 6⟩
  | .vfabsH2 _ _ => some ⟨true, false, false, .none, false, 0, 4⟩
  | .vfnegH2 _ _ => some ⟨true, false, false, .none, false, 0, 4⟩
  | .vfcsgnH2 _ _ _ => some ⟨true, false, false, .none, false, 0, 6⟩
  | .vfaddBf2 _ _ _ => some ⟨true, true, false, .none, false, 0, 6⟩
  | .vfsubBf2 _ _ _ => some ⟨true, true, false, .none, false, 0, 6⟩
  | .vfmulBf2 _ _ _ => some ⟨true, true, false, .none, false, 0, 6⟩
  | .vfminBf2 _ _ _ => some ⟨true, false, false, .none, false, 0, 6⟩
  | .vfmaxBf2 _ _ _ => some ⟨true, false, false, .none, false, 0, 6⟩
  | .vfabsBf2 _ _ => some ⟨true, false, false, .none, false, 0, 4⟩
  | .vfnegBf2 _ _ => some ⟨true, false, false, .none, false, 0, 4⟩
  | .vfcsgnBf2 _ _ _ => some ⟨true, false, false, .none, false, 0, 6⟩
  | .vffma _ _ _ _ => some ⟨true, true, false, .none, false, 0, 6⟩
  | .vffms _ _ _ _ => some ⟨true, true, false, .none, false, 0, 6⟩
  | .vfnma _ _ _ _ => some ⟨true, true, false, .none, false, 0, 6⟩
  | .vcvt _ _ x _ _ => some ⟨true, true, (x = 3 || x = 4 || x = 9 || x = 10), .seed, false, 0, 4⟩
  | .vfrcp _ _ => some ⟨true, true, false, .none, false, 0, 4⟩
  | .vfrsq _ _ => some ⟨true, false, false, .none, false, 0, 4⟩
  | .vfsqrt _ _ => some ⟨true, true, false, .none, false, 0, 4⟩
  | .vfexp2 _ _ => some ⟨true, false, false, .none, false, 0, 4⟩
  | .vflog2 _ _ => some ⟨true, false, false, .none, false, 0, 4⟩
  | .vfsin _ _ => some ⟨true, false, false, .none, false, 0, 4⟩
  | .vfcos _ _ => some ⟨true, false, false, .none, false, 0, 4⟩
  | .vftanh _ _ => some ⟨true, false, false, .none, false, 0, 4⟩
  | .vfsigm _ _ => some ⟨true, false, false, .none, false, 0, 4⟩
  | .vfcmpF32 _ _ _ _ => some ⟨false, false, false, .none, false, 0, 6⟩
  | .vfcmpPacked _ _ _ _ _ => some ⟨true, false, false, .none, false, 0, 6⟩
  | .vhad _ _ => some ⟨true, true, false, .none, false, 0, 4⟩
  | .vkflip _ _ _ => some ⟨true, false, false, .none, false, 0, 4⟩
  | .vamax _ _ => some ⟨true, false, false, .none, false, 0, 4⟩
  | .vqmx _ _ _ => some ⟨true, true, true, .seed, false, 0, 4⟩
  | .vdqmx _ _ _ => some ⟨true, true, false, .none, false, 0, 4⟩
  | .vshflIdx _ _ _ => some ⟨true, false, false, .none, false, 0, 6⟩
  | .vshflXor _ _ _ => some ⟨true, false, false, .none, false, 0, 4⟩
  | .vshflUp _ _ _ => some ⟨true, false, false, .none, false, 0, 4⟩
  | .vshflDn _ _ _ => some ⟨true, false, false, .none, false, 0, 4⟩
  | .vshflIdxH2 _ _ _ => some ⟨true, false, false, .none, false, 0, 6⟩
  | .vmatch _ _ => some ⟨true, false, false, .none, false, 0, 4⟩
  | .vmatchNum _ _ => some ⟨true, false, false, .none, false, 0, 4⟩
  | .vballot _ _ => some ⟨true, false, false, .none, false, 0, 4⟩
  | .vlaneid _ => some ⟨true, false, false, .none, false, 0, 0⟩
  | .vredsumI32 _ _ => some ⟨true, false, false, .none, false, 0, 4⟩
  | .vredsumF32 _ _ => some ⟨true, true, false, .none, false, 0, 4⟩
  | .vredmaxI32 _ _ => some ⟨true, false, false, .none, false, 0, 4⟩
  | .vredmaxN32 _ _ => some ⟨true, false, false, .none, false, 0, 4⟩
  | .vredmaxF32 _ _ => some ⟨true, false, false, .none, false, 0, 4⟩
  | .vredminI32 _ _ => some ⟨true, false, false, .none, false, 0, 4⟩
  | .vredminN32 _ _ => some ⟨true, false, false, .none, false, 0, 4⟩
  | .vredminF32 _ _ => some ⟨true, false, false, .none, false, 0, 4⟩
  | .vscanI32 _ _ => some ⟨true, false, false, .none, false, 0, 4⟩
  | .vscanF32 _ _ => some ⟨true, true, false, .none, false, 0, 4⟩
  | .vscanExI32 _ _ => some ⟨true, false, false, .none, false, 0, 4⟩
  | .vscanExF32 _ _ => some ⟨true, true, false, .none, false, 0, 4⟩
  | .vrdl _ _ _ => some ⟨false, false, false, .none, false, 0, 4⟩
  | .vwrl _ _ => some ⟨true, false, false, .none, false, 0, 0⟩
  | .vrdlD _ _ _ => some ⟨false, false, false, .none, false, 0, 0⟩
  | .vwrlD _ _ => some ⟨true, false, false, .none, false, 0, 0⟩
  | .vld _ _ _ _ q _ => some ⟨(q != 3), false, false, .none, false, 0, 0⟩
  | .vst _ _ _ _ _ _ => some ⟨false, false, false, .none, false, 0, 0⟩
  | .vgld _ _ _ _ q _ => some ⟨(q != 3), false, false, .index, true, 0, 0⟩
  | .vgst _ _ _ _ _ _ => some ⟨false, false, false, .index, true, 0, 0⟩
  | .vatom _ _ o r _ y => some ⟨true, false, false, .index, true, (if r = 0 then (if (o = 0 && (y = 0 || y = 1)) || (o = 5 && (y = 0 || y = 1)) then 5 else 4) else 1), 0⟩
  | .catom _ _ o r n y => some ⟨(n = 0), false, false, .index, true, (if r = 0 then (if (o = 0 && (y = 0 || y = 1)) || (o = 5 && (y = 0 || y = 1)) then 5 else 4) else 1), 0⟩
  | .cfaddo _ _ _ => some ⟨false, false, false, .none, false, 6, 0⟩
  | .cline _ _ _ => some ⟨false, false, false, .none, false, 0, 0⟩
  | .cabandon _ _ => some ⟨false, false, false, .none, false, 0, 0⟩
  | .fence _ _ => some ⟨false, false, false, .none, false, 0, 0⟩
  | .accrd _ _ _ => some ⟨true, false, false, .none, false, 0, 0⟩
  | .accwr _ _ _ => some ⟨false, false, false, .none, false, 0, 0⟩
  | _ => none

/-- The first of some checks that fails, by its cause. -/
def firstCause : List (Nat × Bool) → Option Nat
  | [] => none
  | (c, bad) :: r => if bad then some c else firstCause r

/-- Checks of single words, lowest cause first (R53, R72, R78, R79, R90 to R92, R95, R113, R116 to R120, R124, R130, R144, R194, R202). -/
def ownChecks : Instr → List (Nat × Bool)
  | .scmp _ c _ _ _ => [(3, decide (c.toNat ≥ 12))]
  | .scmpi _ c _ _ _ => [(3, decide (c.toNat ≥ 12))]
  | .srd _ r => [(5, !specialOk false false false r.toNat)]
  | .srdD _ r => [(5, !specialOk false true false r.toNat)]
  | .srdV v => [(5, decide (v.toNat ≥ 64))]
  | .swr r _ => [(5, !specialOk false false true r.toNat)]
  | .swrD r _ => [(5, !specialOk false true true r.toNat)]
  | .call s _ => [(9, s = 0 || s = 7)]
  | .calli _ s => [(9, s = 0 || s = 7)]
  | .leave n => [(3, decide (n = 0))]
  | .jtake g _ => [(9, g.toNat % 4 != 0 || decide (g.toNat > 92))]
  | .jspawn g => [(9, g.toNat % 4 != 0 || decide (g.toNat > 92))]
  | .jpop g _ => [(9, g.toNat % 4 != 0 || decide (g.toNat > 92))]
  | .jsteal g => [(9, g.toNat % 4 != 0 || decide (g.toNat > 92))]
  | .lrefill _ m => [(5, decide (m = 0))]
  | .vffma _ _ _ f => [(3, decide (f = 3))]
  | .vffms _ _ _ f => [(3, decide (f = 3))]
  | .vfnma _ _ _ f => [(3, decide (f = 3))]
  | .vcvt _ _ x y e => [(3, x = y || decide (x.toNat ≥ 11) || decide (y.toNat ≥ 11) || (decide (x.toNat ≥ 5) && decide (y.toNat ≥ 5))), (4, decide (e.toNat ≥ cvtCount x.toNat) || decide (e.toNat ≥ cvtCount y.toNat) || (cvtCount x.toNat = 9 && cvtCount y.toNat = 9 && e != 0))]
  | .vfcmpPacked _ _ _ f _ => [(3, f = 3 || f = 0)]
  | .vqmx _ _ e => [(3, decide (e.toNat ≥ 5))]
  | .vdqmx _ _ e => [(3, decide (e.toNat ≥ 5))]
  | .vld v _ _ z q _ => [(4, q = 3 && (z != 2 || decide (v.toNat ≥ 4)))]
  | .vst _ _ _ _ q _ => [(3, q = 1 || q = 2)]
  | .sld v _ m z q _ => [(3, decide (m = 3)), (4, q = 3 && (z != 2 || decide (v.toNat ≥ 4)))]
  | .sst _ _ m _ q _ => [(3, decide (m = 3)), (3, q = 1 || q = 2)]
  | .vgld v _ _ z q _ => [(4, q = 3 && (z != 2 || decide (v.toNat ≥ 4)))]
  | .vgst _ _ _ _ q _ => [(3, q = 1 || q = 2)]
  | .vatom _ _ o _ c y => [(3, c = 7 || y = 3 || (y = 2 && (o = 3 || o = 4 || o = 5)))]
  | .catom _ _ o _ n y => [(3, y = 3 || (y = 2 && (o = 3 || o = 4 || o = 5)) || (o = 7 && n = 1))]
  | .cline _ _ o => [(3, decide (o.toNat ≥ 6))]
  | .fence o c => [(3, o = 0 || c = 7)]
  | .cpy g _ _ _ => [(9, g.toNat % 4 != 0 || decide (g.toNat > 92))]
  | .cpyo g => [(9, g.toNat % 4 != 0 || decide (g.toNat > 92))]
  | .cpyr g => [(9, g.toNat % 4 != 0 || decide (g.toNat > 92))]
  | .cpyp g => [(9, g.toNat % 4 != 0 || decide (g.toNat > 92))]
  | .oclaim g => [(9, g.toNat % 4 != 0 || decide (g.toNat > 92))]
  | .orel g _ => [(9, g.toNat % 4 != 0 || decide (g.toNat > 92))]
  | .ohdr g => [(9, g.toNat % 4 != 0 || decide (g.toNat > 92))]
  | .ofill g _ => [(9, g.toNat % 4 != 0 || decide (g.toNat > 92))]
  | .nsig g _ => [(9, g.toNat % 4 != 0 || decide (g.toNat > 92))]
  | .nwake g _ => [(9, g.toNat % 4 != 0 || decide (g.toNat > 92))]
  | .ndep g _ _ => [(9, g.toNat % 4 != 0 || decide (g.toNat > 92))]
  | .nrd g _ _ => [(9, g.toNat % 4 != 0 || decide (g.toNat > 92))]
  | .njoin g => [(9, g.toNat % 4 != 0 || decide (g.toNat > 92))]
  | .nwait g _ => [(9, g.toNat % 4 != 0 || decide (g.toNat > 92))]
  | .nself g => [(9, g.toNat % 4 != 0 || decide (g.toNat > 92))]
  | .wwait g _ => [(9, g.toNat % 4 != 0 || decide (g.toNat > 92))]
  | .wwake g => [(9, g.toNat % 4 != 0 || decide (g.toNat > 92))]
  | .srec g _ => [(9, g.toNat % 4 != 0 || decide (g.toNat > 92))]
  | .swm g => [(9, g.toNat % 4 != 0 || decide (g.toNat > 92))]
  | .sidle g => [(9, g.toNat % 4 != 0 || decide (g.toNat > 92))]
  | .swin g => [(9, g.toNat % 4 != 0 || decide (g.toNat > 92))]
  | .swinL g _ => [(9, g.toNat % 4 != 0 || decide (g.toNat > 92))]
  | .spub g => [(9, g.toNat % 4 != 0 || decide (g.toNat > 92))]
  | .samend g => [(9, g.toNat % 4 != 0 || decide (g.toNat > 92))]
  | .sdone g => [(9, g.toNat % 4 != 0 || decide (g.toNat > 92))]
  | .mpost g => [(9, g.toNat % 4 != 0 || decide (g.toNat > 92))]
  | .msend g => [(9, g.toNat % 4 != 0 || decide (g.toNat > 92))]
  | .mstat g _ => [(9, g.toNat % 4 != 0 || decide (g.toNat > 92))]
  | .fsreq g _ => [(9, g.toNat % 4 != 0 || decide (g.toNat > 92))]
  | .accspl _ n => [(5, decide (n.toNat ≥ 768))]
  | .accfil _ n => [(5, decide (n.toNat ≥ 768))]
  | .tlbinv _ c => [(3, decide (c.toNat ≥ 4))]
  | .psrd _ r => [(5, !specialOk true false false r.toNat)]
  | .psrdD _ r => [(5, !specialOk true true false r.toNat)]
  | .pswr r _ => [(5, !specialOk true false true r.toNat)]
  | .pswrD r _ => [(5, !specialOk true true true r.toNat)]
  | _ => []

/-- A register beyond its class, or a group with a wrong base (cause 5). -/
def Opnd.bad (o : Opnd) : Bool :=
  match o with
  | .u r n _ _ => decide (r + n > 96) || r % n != 0
  | .v r n _ _ _ => decide (r + n > 64) || r % n != 0
  | .newBase _ _ => false
  | .load r n absent => !absent && (decide (r + n > 64) || r % n != 0)
  | .loadU r n absent => !absent && (decide (r + n > 96) || r % n != 0)
  | _ => false

/-- A command word's uniform group is checked as its base (cause 9), not as a register. -/
def isCommand (i : Instr) : Bool := (ownChecks i).any fun c => c.1 = 9

/-- A data-queue field of the governed word with bits beyond [1:0] (R55). -/
def dqFieldBad (q : BitVec 3) (o : Opnd) : Bool :=
  match o with
  | .v r _ _ _ (some b) => q.getLsbD b && decide (r ≥ 4)
  | _ => false

/-- A dq operand names no register, so only its queue number is checked. -/
def Opnd.badUnder (q : BitVec 3) (o : Opnd) : Bool :=
  match o with
  | .v _ _ _ _ (some b) => if q.getLsbD b then false else o.bad
  | .u r n _ _ => if n = 0 then false else decide (r + n > 96) || r % n != 0
  | o => o.bad

/-- The cause of a word under the prefix before it (R58), a wrong queue number in the prefix's `v4` among them; the checks of
the prefix's own bits are `pfxCause`. -/
def wordCause (p : Option Pfx) (i : Instr) : Option Nat :=
  let own := ownChecks i
  let q : BitVec 3 := match p with | some f => f.q | none => 0
  let five := (!isCommand i && (operands i).any (Opnd.badUnder q)) || (operands i).any (dqFieldBad q) ||
    (isCommand i && (operands i).any fun o => match o with | .v .. => o.bad | _ => false)
  let fourth := match vecInfo i, p with | some v, some f => v.v4 = .reg && f.q.getLsbD 0 && decide (f.v.toNat ≥ 4) | _, _ => false
  let six := match vecInfo i with | some v => v.need && p.isNone | none => false
  firstCause ((own.filter fun c => c.1 < 5) ++ [(5, five || fourth)] ++ (own.filter fun c => c.1 = 5) ++ [(6, six)] ++ (own.filter fun c => c.1 > 6))

/-- `v4` bits that the word does not use, by cause: 4 for the zero bits of `vsel`'s mask, 5 for an odd seed pair, 6 for
a field the word does not use (R55, R83, R93). -/
def v4Checks (v : VecInfo) (f : Pfx) : List (Nat × Bool) :=
  match v.v4 with
  | .none => [(6, decide (f.v != 0))]
  | .reg => []
  | .mask => [(4, decide (f.v.toNat ≥ 8))]
  | .index => []
  | .seed => if f.r = 5 then [(5, f.v.getLsbD 0)] else [(6, decide (f.v != 0))]

/-- The cause of a prefix's own bits before a word (R55, R27, R118, R121); `none` for the word: it stands last. -/
def pfxCause (f : Pfx) (next : Option Instr) : Option Nat :=
  match next.bind vecInfo with
  | none => some 6
  | some v =>
    let lane := match next with | some (.vrdl ..) => true | some (.vrdlD ..) => true | some (.fence ..) => true | _ => false
    let useBad := if v.use = 6 then f.u != 0 && f.u != 2 else decide (f.u.toNat ≥ Nat.max 1 v.use)
    let v4 := v4Checks v f
    firstCause ((v4.filter fun c => c.1 < 6) ++
      [(6, (f.z = 1 && !v.z) || (f.q &&& ~~~v.dq != 0) || useBad || (lane && f.m != 0))] ++ (v4.filter fun c => c.1 = 6) ++
      [(7, decide (f.r.toNat ≥ 6) || (f.r = 5 && !v.sr) || (f.r != 0 && !v.rm))])

/-- The cause of the bits of a prefix that no word may use (R55, R27): for one whose vector word has an unassigned minor code. -/
def pfxUseCause (f : Pfx) : Option Nat := firstCause [(6, decide (f.u.toNat ≥ 5)), (7, decide (f.r.toNat ≥ 6))]

/-! ## Pipes (R54) -/

inductive Pipe where
  | none
  | u
  | v
  | x
  | m
  deriving DecidableEq, Repr

/-- The pipe of a major. -/
def pipeOf (major : Nat) : Pipe :=
  if major = 0 || major = 0x3C then .none
  else if major ≤ 0x0B || major = 0x0D || major = 0x38 || major = 0x3A then .u
  else if major = 0x0C || major = 0x0E then .m
  else if major ≤ 0x1B || major = 0x1E then .v
  else if major ≤ 0x23 then .x
  else .m

end Sys2Proof.Machine
end

