-- ==== Sys2Proof/Config.lean ====
section
/-!
DEFINITION. What the spec leaves open: free values. None has a body, so no proof can see what it is (assumptions
4, 8, 9, 10, 12, 14, 16 to 19, 21, 23, 25 and 76).
-/
namespace Sys2Proof.Config

/-- Which of several possible moves happens next (assumption 4): an index, taken modulo their number. -/
opaque schedule (tick : Nat) : Nat

/-- The 512 bits of AES-XTS-256 keys behind a key id (R295, assumption 8). -/
opaque memKey (k : Nat) : BitVec 512

/-- The result bits of the special function `fn` of R94 at an input (assumption 9). -/
opaque special (fn : Nat) (x : Word) : Word

/-- A byte of the opaque reconvergence block (R208): the value of a counter of the state, and the offset
(assumption 10). -/
opaque reconByte (tick off : Nat) : Byte

/-- What another module of the fabric answers to an operation on it: its state is outside this machine (assumption
12). The value of a counter of the state. -/
opaque remoteStatus (tick : Nat) : Word

/-- A byte read from another module's memory by `cpyr` (assumption 12). -/
opaque remoteByte (tick off : Nat) : Byte

/-- What a translation on the remote side of a `cpyr` does to a unit of it (R157): 1 a fault that suspends the copy until the peer has
served it, 2 a fatal fault that cancels it, else nothing (assumption 12). The value of a counter of the state, and the offset. -/
opaque remoteFault (tick off : Nat) : BitVec 2

/-- A byte that the hub loads through a page that forbids it (R298 says nothing of such a load; assumption 14): the value of
a counter of the state, and the address. -/
opaque unreadByte (tick va : Nat) : Byte

/-- A field of a record that the spec gives no value in the case at hand (R297, R333, R339; assumption 23): the value of a counter
of the state, and the field's offset. -/
opaque recordField (tick off : Nat) : Half

/-- The pages whose translations the TLBs and walkers take up in a cycle, each a context and an address, from the value of a counter
of the state (R202, R295; assumption 25). -/
opaque cachedPages (tick : Nat) : List (Nat × Nat)

/-- Which of the cached translations that cover an address an access uses, or none of them (R202, R295; assumption 25). -/
opaque cachePick (tick va : Nat) : Nat

/-- How many bounce pages a module has beyond 16 (R298 gives no number; with fewer than 16 no message could ever be admitted;
assumption 16). -/
opaque moreBouncePages : Nat

/-- The tag of the message that `fsreq` sends (R192, R285 give none; assumption 17). -/
opaque fileTag : Half

/-- What a link entry holds that a write to `wdepth` brings on chip without a call (assumption 18). -/
opaque staleLink (tick i : Nat) : DWord

/-- The firmware images a module presents at bring-up (R349, assumption 76). -/
opaque firmwareImages : List (List Byte)

/-- An image carries a valid signature under the Dararis root key (R349, assumption 76). -/
opaque imageSigned (image : List Byte) : Bool

/-- SHAKE256 of an image (R349; the spec names the function and gives no definition; assumption 76). -/
opaque measurement (image : List Byte) : List Byte

/-- The SLH-DSA-SHAKE-256s signature of a report under the module's identity key (R349, assumption 76). -/
opaque identitySign (report : List Byte) : List Byte

/-- The shadow columns of an `mmac` that disagree with the columns they repeat (R330): from the value of a counter of the state, the
mask of the rows that differ in the first and in the second of them (assumption 19). -/
opaque shadowRows (tick : Nat) (second : Bool) : BitVec 32

/-- How many records a producer's store of TAIL puts beyond the first that the launch unit has not seen (R261, assumption 21). -/
opaque tailAhead (tick : Nat) : Nat

end Sys2Proof.Config
end

