-- ==== Sys2Proof/Machine/Numbers.lean ====
section
/-!
DEFINITION. Number formats and exact arithmetic (02_numbers.md): the floating-point formats (R22, R23, R26), rounding
(R27, R28), stochastic rounding and the keyed generator (R29, R30), the integer helpers of R7, and MX scales (R24).
Every value is an exact dyadic until `Fmt.rnd` rounds it once.
-/
namespace Sys2Proof.Machine

/-! ## Integer helpers (R7) -/

/-- Bits [h:l] of a natural number. -/
def bitsNat (x h l : Nat) : Nat := (x >>> l) % 2 ^ (h + 1 - l)

/-- `sext(x, n)`: an n-bit two's-complement value. -/
def sextNat (x n : Nat) : Int := if (x % 2 ^ n) * 2 ≥ 2 ^ n then ((x % 2 ^ n : Nat) : Int) - (2 ^ n : Nat) else (x % 2 ^ n : Nat)

/-- Saturation of an integer to a range. -/
def clampInt (lo hi x : Int) : Int := if x < lo then lo else if hi < x then hi else x

/-- `sat8`, `sat16`, `sat32` for n of 8, 16 or 32. -/
def satS (n : Nat) (x : Int) : Int := clampInt (-(2 ^ (n - 1) : Nat)) ((2 ^ (n - 1) : Nat) - 1) x

/-- `usat8`, `usat16` for n of 8 or 16. -/
def satU (n : Nat) (x : Int) : Int := clampInt 0 ((2 ^ n : Nat) - 1) x

/-- An integer as an n-bit pattern, modulo 2^n. -/
def wrapNat (n : Nat) (x : Int) : Nat := (x % (2 ^ n : Nat)).toNat

/-! ## Exact values -/

/-- An exact dyadic: (−1)^neg × man × 2^exp. A zero keeps its sign. -/
structure Dy where
  neg : Bool
  man : Nat
  exp : Int
  deriving DecidableEq, Repr

/-- An exact floating-point value. -/
inductive FVal where
  | nan
  | inf (neg : Bool)
  | num (d : Dy)
  deriving DecidableEq, Repr

/-- The rounding modes of R27. -/
inductive RMode where
  | rn | rz | rpi | rmi | rna
  deriving DecidableEq, Repr

/-- The mode of a prefix's rm field 000 to 100. 101 is stochastic rounding, handled apart (R29). -/
def RMode.ofField (r : BitVec 3) : RMode :=
  match r.toNat with
  | 1 => .rz
  | 2 => .rpi
  | 3 => .rmi
  | 4 => .rna
  | _ => .rn

def Dy.zero (neg : Bool) : Dy := ⟨neg, 0, 0⟩

/-- The signed mantissa at exponent `e`, which must not exceed `d.exp`. -/
def Dy.scaled (d : Dy) (e : Int) : Int :=
  let n : Nat := d.man <<< (d.exp - e).toNat
  if d.neg then -(n : Int) else n

/-- Exact comparison: a ≤ b, with −0 = +0. -/
def Dy.le (a b : Dy) : Bool :=
  let e := min a.exp b.exp
  a.scaled e ≤ b.scaled e

def Dy.eqv (a b : Dy) : Bool := a.le b && b.le a

/-- Exact sum. An exact zero of terms of opposite sign is +0, except under `.rmi`, where it is −0 (R73). -/
def Dy.add (mode : RMode) (a b : Dy) : Dy :=
  let e := min a.exp b.exp
  let s := a.scaled e + b.scaled e
  if s = 0 then
    if a.neg = b.neg then ⟨a.neg, 0, 0⟩ else ⟨mode = .rmi, 0, 0⟩
  else ⟨s < 0, s.natAbs, e⟩

def Dy.mul (a b : Dy) : Dy := ⟨a.neg != b.neg, a.man * b.man, a.exp + b.exp⟩

/-- floor(log2 |d|) of a non-zero d. -/
def Dy.log2 (d : Dy) : Int := d.man.log2 + d.exp

def FVal.neg : FVal → FVal
  | .nan => .nan
  | .inf n => .inf !n
  | .num d => .num { d with neg := !d.neg }

def FVal.abs : FVal → FVal
  | .nan => .nan
  | .inf _ => .inf false
  | .num d => .num { d with neg := false }

def FVal.isNeg : FVal → Bool
  | .nan => false
  | .inf n => n
  | .num d => d.neg

def FVal.isZero : FVal → Bool
  | .num d => d.man = 0
  | _ => false

/-- Exact sum of two values (R73, R89): Inf − Inf is NaN. -/
def FVal.add (mode : RMode) : FVal → FVal → FVal
  | .nan, _ => .nan
  | _, .nan => .nan
  | .inf a, .inf b => if a = b then .inf a else .nan
  | .inf a, .num _ => .inf a
  | .num _, .inf b => .inf b
  | .num a, .num b => .num (a.add mode b)

/-- Exact product (R73, R89): 0 × Inf is NaN. -/
def FVal.mul : FVal → FVal → FVal
  | .nan, _ => .nan
  | _, .nan => .nan
  | .inf a, .inf b => .inf (a != b)
  | .inf a, .num d => if d.man = 0 then .nan else .inf (a != d.neg)
  | .num d, .inf b => if d.man = 0 then .nan else .inf (d.neg != b)
  | .num a, .num b => .num (a.mul b)

/-- Exact sum of a list, in any order (R96, R103): `none` of an empty list. -/
def FVal.sum (mode : RMode) : List FVal → Option FVal
  | [] => none
  | [x] => some x
  | x :: y :: r => (FVal.sum mode (y :: r)).map fun s => x.add mode s

/-- Order of two values that are not NaN, with −0 below +0 (R89). -/
def FVal.below : FVal → FVal → Bool
  | .inf a, .inf b => a && !b
  | .inf a, _ => a
  | _, .inf b => !b
  | .num a, .num b =>
    if a.man = 0 && b.man = 0 then a.neg && !b.neg
    else !(b.le a)
  | _, _ => false

def FVal.isNan : FVal → Bool
  | .nan => true
  | _ => false

/-- The smaller of two values; NaN when either is NaN (R89). -/
def FVal.min (x y : FVal) : FVal := if x.isNan || y.isNan then .nan else if y.below x then y else x

/-- The larger of two values; NaN when either is NaN (R89). -/
def FVal.max (x y : FVal) : FVal := if x.isNan || y.isNan then .nan else if x.below y then y else x

/-- Numeric equality, +0 equal to −0, NaN equal to nothing (R91, R102). -/
def FVal.numEq : FVal → FVal → Bool
  | .inf a, .inf b => a = b
  | .num a, .num b => a.eqv b
  | _, _ => false

/-- Numeric less-than; false with a NaN operand, −0 not below +0 (R91). -/
def FVal.numLt (x y : FVal) : Bool := !x.isNan && !y.isNan && x.below y && !(x.numEq y)

/-! ## Formats (R22, R23, R26) -/

/-- What the all-ones exponent means. -/
inductive FKind where
  | ieee
  | e4m3
  | noInf
  deriving DecidableEq, Repr

/-- A floating-point format: exponent bits, fraction bits, bias, special codes and the subnormal policy. -/
structure Fmt where
  eb : Nat
  mb : Nat
  bias : Int
  kind : FKind
  flush : Bool
  deriving DecidableEq, Repr

def fp32 : Fmt := ⟨8, 23, 127, .ieee, false⟩
def fp16 : Fmt := ⟨5, 10, 15, .ieee, false⟩
def bf16 : Fmt := ⟨8, 7, 127, .ieee, true⟩
def e4m3 : Fmt := ⟨4, 3, 7, .e4m3, false⟩
def e5m2 : Fmt := ⟨5, 2, 15, .ieee, false⟩
def e3m2 : Fmt := ⟨3, 2, 3, .noInf, false⟩
def e2m3 : Fmt := ⟨2, 3, 1, .noInf, false⟩
def e2m1 : Fmt := ⟨2, 1, 1, .noInf, false⟩

def Fmt.width (f : Fmt) : Nat := f.eb + f.mb + 1

/-- The value of a code; a subnormal of a flushing format is a zero of its sign (R26). -/
def Fmt.decode (f : Fmt) (c : Nat) : FVal :=
  let frac := c % 2 ^ f.mb
  let e := (c >>> f.mb) % 2 ^ f.eb
  let s := (c >>> (f.mb + f.eb)) % 2 == 1
  if f.kind = .ieee ∧ e = 2 ^ f.eb - 1 then if frac = 0 then .inf s else .nan
  else if f.kind = .e4m3 ∧ e = 2 ^ f.eb - 1 ∧ frac = 2 ^ f.mb - 1 then .nan
  else if e = 0 then .num ⟨s, if f.flush then 0 else frac, 1 - f.bias - f.mb⟩
  else .num ⟨s, frac + 2 ^ f.mb, (e : Int) - f.bias - f.mb⟩

/-- The code of the largest finite magnitude. -/
def Fmt.maxCode (f : Fmt) : Nat :=
  match f.kind with
  | .ieee => (2 ^ f.eb - 1) * 2 ^ f.mb - 1
  | .e4m3 => 2 ^ (f.eb + f.mb) - 2
  | .noInf => 2 ^ (f.eb + f.mb) - 1

/-- The canonical NaN; +0 for a format without NaN (R28). -/
def Fmt.nanCode (f : Fmt) : Nat :=
  match f.kind with
  | .ieee => (2 ^ f.eb - 1) * 2 ^ f.mb + 2 ^ (f.mb - 1)
  | .e4m3 => 2 ^ (f.eb + f.mb) - 1
  | .noInf => 0

/-- Infinity, or the largest finite value where the format has none (R28). -/
def Fmt.infCode (f : Fmt) : Nat :=
  match f.kind with
  | .ieee => (2 ^ f.eb - 1) * 2 ^ f.mb
  | _ => f.maxCode

def Fmt.withSign (f : Fmt) (neg : Bool) (c : Nat) : Nat := if neg then c + 2 ^ (f.eb + f.mb) else c

/-- man × 2^−sh rounded to an integer under a mode, for the sign given. -/
def roundShift (mode : RMode) (neg : Bool) (man sh : Nat) : Nat :=
  let lo := man >>> sh
  let rem := man % 2 ^ sh
  let up : Bool :=
    match mode with
    | .rn => rem * 2 > 2 ^ sh || (rem * 2 == 2 ^ sh && lo % 2 == 1)
    | .rna => rem * 2 ≥ 2 ^ sh
    | .rz => false
    | .rpi => rem != 0 && !neg
    | .rmi => rem != 0 && neg
  if up then lo + 1 else lo

/-- man × 2^exp rounded to a multiple of 2^q, in units of 2^q. -/
def roundTo (mode : RMode) (d : Dy) (q : Int) : Nat :=
  if q ≤ d.exp then d.man <<< (d.exp - q).toNat else roundShift mode d.neg d.man (q - d.exp).toNat

/-- The exponent of the last place kept of a non-zero d: unbounded below for a flushing format (R26). -/
def Fmt.quantum (f : Fmt) (d : Dy) : Int :=
  if f.flush then d.log2 - f.mb else max d.log2 (1 - f.bias) - f.mb

/-- `rnd(x, fmt, mode)` of R28 for a floating-point format, answering the code. -/
def Fmt.rnd (f : Fmt) (mode : RMode) : FVal → Nat
  | .nan => f.nanCode
  | .inf n => f.withSign n f.infCode
  | .num d =>
    if d.man = 0 then f.withSign d.neg 0
    else
      let q := f.quantum d
      let n := roundTo mode d q
      let code : Int := (q + f.mb + f.bias - 1) * (2 ^ f.mb : Nat) + n
      if code > f.maxCode then
        if f.kind ≠ .ieee then f.withSign d.neg f.maxCode
        else
          match mode with
          | .rn | .rna => f.withSign d.neg f.infCode
          | .rz => f.withSign d.neg f.maxCode
          | .rpi => if d.neg then f.withSign true f.maxCode else f.infCode
          | .rmi => if d.neg then f.withSign true f.infCode else f.maxCode
      else if f.flush ∧ code < (2 ^ f.mb : Nat) then f.withSign d.neg 0
      else f.withSign d.neg code.toNat

/-- x rounded to an integer under a mode. -/
def Dy.toInt (mode : RMode) (d : Dy) : Int :=
  let n := roundTo mode d 0
  if d.neg then -(n : Int) else n

/-- Rounding to an integer format with the range lo … hi (R28). -/
def rndInt (mode : RMode) (lo hi : Int) : FVal → Int
  | .nan => 0
  | .inf n => if n then lo else hi
  | .num d => clampInt lo hi (d.toInt mode)

/-! ## The keyed generator and stochastic rounding (R29, R30) -/

/-- The SplitMix64 finaliser. -/
def fin64 (z : DWord) : DWord :=
  let z := (z ^^^ (z >>> 30)) * 0xBF58476D1CE4E5B9#64
  let z := (z ^^^ (z >>> 27)) * 0x94D049BB133111EB#64
  z ^^^ (z >>> 31)

/-- g(seed, j). -/
def keyed (seed : DWord) (j : Nat) : DWord := fin64 (seed ^^^ (BitVec.ofNat 64 j * 0x9E3779B97F4A7C15#64))

/-- The 16 random bits of R29. -/
def keyed16 (seed : DWord) (j : Nat) : Nat := ((keyed seed j) >>> 32).toNat % 65536

/-- Stochastic rounding of |d| to a multiple of 2^q with the random bits r, in units of 2^q (R29). -/
def roundStoch (d : Dy) (q : Int) (r : Nat) : Nat :=
  if q ≤ d.exp then d.man <<< (d.exp - q).toNat
  else
    let sh := (q - d.exp).toNat
    let lo := d.man >>> sh
    let f := ((d.man % 2 ^ sh) * 65536) >>> sh
    if f + r ≥ 65536 then lo + 1 else lo

/-- Stochastic rounding to a floating-point format (R29). -/
def Fmt.rndStoch (f : Fmt) (r : Nat) : FVal → Nat
  | .num d =>
    if d.man = 0 then f.withSign d.neg 0
    else
      let q := f.quantum d
      let lo : Int := (q + f.mb + f.bias - 1) * (2 ^ f.mb : Nat) + (roundTo .rz d q)
      if lo ≥ f.maxCode then f.withSign d.neg f.maxCode
      else f.withSign d.neg (((q + f.mb + f.bias - 1) * (2 ^ f.mb : Nat) + roundStoch d q r : Int).toNat)
  | x => f.rnd .rn x

/-- Stochastic rounding to an integer format with the range lo … hi (R29). -/
def rndIntStoch (lo hi : Int) (r : Nat) : FVal → Int
  | .num d =>
    if d.man = 0 then 0
    else
      let top := if d.neg then lo.natAbs else hi.natAbs
      let fl := roundTo .rz d 0
      let n := if fl ≥ top then top else roundStoch d 0 r
      if d.neg then -(n : Int) else n
  | x => rndInt .rn lo hi x

/-! ## Correctly rounded quotient and root (R94) -/

/-- Integer square root, one bit at a time. -/
def isqrtAux (x : Nat) : Nat → Nat → Nat
  | 0, r => if (r + 1) * (r + 1) ≤ x then r + 1 else r
  | k + 1, r => isqrtAux x k (if (r + 2 ^ (k + 1)) * (r + 2 ^ (k + 1)) ≤ x then r + 2 ^ (k + 1) else r)

/-- floor(√x). -/
def isqrt (x : Nat) : Nat := isqrtAux x (x.log2 / 2 + 1) 0

/-- 1 / d of a non-zero d, with a sticky low bit below any place a rounding keeps. -/
def Dy.recip (d : Dy) : Dy :=
  let k := d.man.log2 + 64
  ⟨d.neg, 2 * (2 ^ k / d.man) + (if 2 ^ k % d.man = 0 then 0 else 1), -(k : Int) - d.exp - 1⟩

/-- √d of a non-negative d, with a sticky low bit below any place a rounding keeps. -/
def Dy.sqrt (d : Dy) : Dy :=
  let sh : Nat := 96 + ((d.exp % 2).toNat)
  let x := d.man <<< sh
  let r := isqrt x
  ⟨false, 2 * r + (if r * r = x then 0 else 1), (d.exp - sh) / 2 - 1⟩

/-! ## MX scales (R24) -/

/-- The scale word of a scale byte. -/
def scaleWord (b : Nat) : Nat := b % 256 + 256 * ((b % 256) ^^^ 255)

/-- A scale word whose high byte is not the complement of its low byte. -/
def badScale (w : Nat) : Bool := (w >>> 8) % 256 != (w % 256) ^^^ 255

/-- The element formats by the code of R95. -/
def mxFmt : Nat → Option Fmt
  | 0 => some e4m3
  | 1 => some e5m2
  | 2 => some e3m2
  | 3 => some e2m3
  | 4 => some e2m1
  | _ => none

/-- emax of R34: the exponent of the largest normal value. -/
def mxEmax : Nat → Int
  | 0 => 8
  | 1 => 15
  | 2 => 4
  | _ => 2

/-- rne(a + b) on FP32 words, the sum of R73 that atomics, `cline` and lauter cells use. -/
def f32Add (a b : Word) : Word := BitVec.ofNat 32 (fp32.rnd .rn ((fp32.decode a.toNat).add .rn (fp32.decode b.toNat)))

end Sys2Proof.Machine
end

