-- ==== Sys2Proof/Machine/Ops.lean ====
section
/-!
DEFINITION. The named operations over memory cells, registers, results in flight and agents (R3, R9 to R15, R20, R48).
-/
namespace Sys2Proof.Machine

/-! ## Memory cells -/

/-- The byte at an address; an unlisted address reads 0. -/
def cellGet : List Host.Cell → Nat → Byte
  | [], _ => 0
  | (k, b) :: r, a => if k = a then b else cellGet r a

/-- The memory with one byte written; a zero is not listed. -/
def cellSet : List Host.Cell → Nat → Byte → List Host.Cell
  | [], a, b => if b = 0 then [] else [(a, b)]
  | (k, c) :: r, a, b =>
    if a < k then (if b = 0 then (k, c) :: r else (a, b) :: (k, c) :: r)
    else if a = k then (if b = 0 then r else (a, b) :: r)
    else (k, c) :: cellSet r a b

def cellsRead (m : List Host.Cell) (a : Nat) : Nat → List Byte
  | 0 => []
  | n + 1 => cellGet m a :: cellsRead m (a + 1) n

def cellsWrite (m : List Host.Cell) (a : Nat) : List Byte → List Host.Cell
  | [] => m
  | b :: r => cellsWrite (cellSet m a b) (a + 1) r

/-- Every cell of [a, a + n) removed: the bytes read 0. -/
def cellsClear (m : List Host.Cell) (a n : Nat) : List Host.Cell := m.filter fun c => !(decide (a ≤ c.1) && decide (c.1 < a + n))

/-- The value of bytes, the first the least significant (R3). -/
def leNat : List Byte → Nat
  | [] => 0
  | b :: r => b.toNat + 256 * leNat r

/-- The n low bytes of a value, the least significant first (R3). -/
def leBytes : Nat → Nat → List Byte
  | 0, _ => []
  | n + 1, v => BitVec.ofNat 8 v :: leBytes n (v / 256)

/-! ## Vectors of lanes -/

def splat (w : Word) : VReg := Vector.replicate 32 w

/-- `new` in the lanes of a mask, `old` elsewhere (R71). -/
def blend (lanes : Word) (new old : VReg) : VReg :=
  Vector.ofFn fun i => if lanes.getLsbD i then new[i] else old[i]

def allLanes : Word := 0xFFFFFFFF#32

/-- The lanes of a mask, in increasing order. -/
def lanesOf (m : Word) : List (Fin 32) := (List.finRange 32).filter fun i => m.getLsbD i

def popc (x : Nat) : Nat → Nat
  | 0 => 0
  | n + 1 => (x >>> n) % 2 + popc x n

/-! ## Registers (R9, R12, R13) -/

def Warp.readU (w : Warp) (n : Nat) : Word := w.sregs[n]?.getD 0

/-- A uniform pair, the low half in the lower register (R13). -/
def Warp.readUD (w : Warp) (n : Nat) : DWord := w.readU (n + 1) ++ w.readU n

/-- `p0` reads true (R9). -/
def Warp.readP (w : Warp) (n : Nat) : Bool := n = 0 || w.preds.getLsbD n

/-- The ring index of a windowed register (R12). -/
def Warp.phys (w : Warp) (n : Nat) : Nat := (w.wbase + n - 16) % w.w

def Warp.readV (w : Warp) (n : Nat) : VReg :=
  if n < 16 then w.vfix[n]?.getD zeroVec else w.ring[w.phys n]?.getD zeroVec

/-- Where a vector register stands (R12). -/
def Warp.vdest (w : Warp) (n : Nat) : Dest := if n < 16 then .vf n else .vr (w.phys n)

def Warp.splitAt (w : Warp) (i : Nat) : Split := w.splits[i]?.getD Split.none

def Warp.setSplit (w : Warp) (i : Nat) (p : Split) : Warp := { w with splits := w.splits.setIfInBounds i p }

/-- `m0` reads the split's active mask (R9). -/
def Warp.readM (w : Warp) (sp n : Nat) : Word := if n = 0 then (w.splitAt sp).mask else w.masks[n]?.getD 0

def Warp.readQ (w : Warp) (n : Nat) : DWord := w.q[n]?.getD 0

/-- One result written (R11, R48). Writes to `p0` and `m0` are discarded (R9). -/
def Warp.writeDest (w : Warp) (d : Dest) (lanes : Word) (v : VReg) : Warp :=
  match d with
  | .u n => { w with sregs := w.sregs.setIfInBounds n v[0] }
  | .vf n => { w with vfix := w.vfix.setIfInBounds n (blend lanes v (w.vfix[n]?.getD zeroVec)) }
  | .vr i => { w with ring := w.ring.setIfInBounds i (blend lanes v (w.ring[i]?.getD zeroVec)) }
  | .p n =>
    if n = 0 then w
    else
      let bit : BitVec 8 := 1#8 <<< n
      { w with preds := if v[0] = 0 then w.preds &&& ~~~bit else w.preds ||| bit }
  | .m n => if n = 0 then w else { w with masks := w.masks.setIfInBounds n v[0] }
  | .q n => { w with q := w.q.setIfInBounds n ((v[1] &&& 0x0000FFFF#32) ++ v[0]) }

/-- The results due by a cycle are written, oldest first (R48). -/
def Warp.settle (w : Warp) (now : Nat) : Warp :=
  let due (p : Pend) : Bool := match p.due with | some d => decide (d ≤ now) | .none => false
  if w.pend.any due then
    let w' := (w.pend.filter due).foldl (fun a p => a.writeDest p.dest p.lanes p.val) w
    { w' with pend := w.pend.filter fun p => !due p }
  else w

/-- Every result in flight, VAR ones too, is written (R287). -/
def Warp.settleAll (w : Warp) : Warp :=
  let w' := w.pend.foldl (fun a p => a.writeDest p.dest p.lanes p.val) w
  { w' with pend := [] }

/-- Every fixed-latency result in flight has been written by this cycle (R49). -/
def Warp.fixedBy (w : Warp) : Nat := w.pend.foldl (fun a p => match p.due with | some d => Nat.max a d | .none => a) 0

/-- Every fixed-latency result in flight is written (R198). -/
def Warp.settleFixed (w : Warp) : Warp := w.settle w.fixedBy

/-! ## The issuing split -/

def State.split (s : State) : Split := s.warp.splitAt s.issue.sp

def State.setSplit (s : State) (p : Split) : State := { s with warp := s.warp.setSplit s.issue.sp p }

def State.U (s : State) (n : Nat) : Word := s.warp.readU n
def State.UD (s : State) (n : Nat) : DWord := s.warp.readUD n
def State.V (s : State) (n : Nat) : VReg := s.warp.readV n
def State.M (s : State) (n : Nat) : Word := s.warp.readM s.issue.sp n
def State.P (s : State) (n : Nat) : Bool := s.warp.readP n

/-- What is still to be written of results in flight when newer ones to registers of `ds` take the lanes over. -/
def overlaid (ds : List Dest) (lanes : Word) (ps : List Pend) : List Pend :=
  ps.filterMap fun p =>
    if ds.contains p.dest then
      if p.lanes &&& ~~~lanes = 0 then none else some { p with lanes := p.lanes &&& ~~~lanes }
    else some p

/-- A word that gives results goes to the execute stream, unless its major is one of 0x01 to 0x07 (R211); loads give theirs as VAR
results. -/
def executeWord (w : Word) : Bool :=
  let m := (w.extractLsb' 22 6).toNat
  !(decide (1 ≤ m) && decide (m ≤ 7))

/-- A word whose value comes from a request to memory: a load, a gather or an atomic (majors 0x24, 0x26, 0x28, 0x2A and 0x2B). -/
def requestWord (w : Word) : Bool := [0x24, 0x26, 0x28, 0x2A, 0x2B].contains (w.extractLsb' 22 6).toNat

/-- A result put in flight: `lat` cycles for a fixed class, `none` for VAR (R48). In one chain the word of the higher
slot determines a register, lane by lane (R46). -/
def State.put (s : State) (lat : Option Nat) (d : Dest) (lanes : Word) (v : VReg) : State :=
  { s with
    nextId := s.nextId + 1
    warp := { s.warp with pend := overlaid [d] lanes s.warp.pend ++ [⟨s.nextId, lat.map (s.clock + ·), executeWord s.issue.word, requestWord s.issue.word, d, lanes, v⟩] } }

/-- Latency classes (R48). -/
def latU : Option Nat := some 1
def latV4 : Option Nat := some 4
def latV6 : Option Nat := some 6
def latX8 : Option Nat := some 8
def latX16 : Option Nat := some 16
def latVar : Option Nat := none

def State.putU (s : State) (lat : Option Nat) (n : Nat) (v : Word) : State := s.put lat (.u n) allLanes (splat v)

/-- Two registers written in the same cycle, under one number (R13). -/
def State.put2 (s : State) (lat : Option Nat) (d e : Dest) (lanes : Word) (v w : VReg) : State :=
  { s with
    nextId := s.nextId + 1
    warp := { s.warp with
      pend := overlaid [d, e] lanes s.warp.pend ++ 
        [⟨s.nextId, lat.map (s.clock + ·), executeWord s.issue.word, requestWord s.issue.word, d, lanes, v⟩, ⟨s.nextId, lat.map (s.clock + ·), executeWord s.issue.word, requestWord s.issue.word, e, lanes, w⟩] } }

/-- Both registers of a pair (R13). -/
def State.putUD (s : State) (lat : Option Nat) (n : Nat) (v : DWord) : State :=
  s.put2 lat (.u n) (.u (n + 1)) allLanes (splat (v.setWidth 32)) (splat ((v >>> 32).setWidth 32))

def State.putP (s : State) (lat : Option Nat) (n : Nat) (v : Bool) : State :=
  s.put lat (.p n) allLanes (splat (if v then 1 else 0))

def State.putM (s : State) (lat : Option Nat) (n : Nat) (v : Word) : State := s.put lat (.m n) allLanes (splat v)

/-! ## Agents: the loaded records and the others -/

def State.getWarp (s : State) (k : WKey) : Option Warp :=
  if s.warp.key = k ∧ s.active then some s.warp else s.warps.find? fun w => w.key = k

def State.setWarp (s : State) (w : Warp) : State :=
  if s.warp.key = w.key ∧ s.active then { s with warp := w }
  else { s with warps := s.warps.map fun x => if x.key = w.key then w else x }

def State.getBlk (s : State) (core slot : Nat) : Option Block :=
  if s.blk.core = core ∧ s.blk.slot = slot ∧ s.active then some s.blk
  else s.blks.find? fun b => b.core = core && b.slot = slot

def State.setBlk (s : State) (b : Block) : State :=
  if s.blk.core = b.core ∧ s.blk.slot = b.slot ∧ s.active then { s with blk := b }
  else { s with blks := s.blks.map fun x => if x.core = b.core ∧ x.slot = b.slot then b else x }

def State.getCore (s : State) (id : Nat) : Core :=
  if s.core.id = id ∧ s.active then s.core else (s.cores.find? fun c => c.id = id).getD { Core.none with id := id }

def State.setCore (s : State) (c : Core) : State :=
  if s.core.id = c.id ∧ s.active then { s with core := c }
  else if s.cores.any (fun x => x.id = c.id) then { s with cores := s.cores.map fun x => if x.id = c.id then c else x }
  else { s with cores := s.cores ++ [c] }

def State.getCtx (s : State) (id : Nat) : Option Ctx :=
  if s.ctx.id = id ∧ s.active then some s.ctx else s.ctxs.find? fun c => c.id = id

def State.setCtx (s : State) (c : Ctx) : State :=
  if s.ctx.id = c.id ∧ s.active then { s with ctx := c }
  else { s with ctxs := s.ctxs.map fun x => if x.id = c.id then c else x }

/-- The loaded records go back to the lists; a handler warp has no block. -/
def State.unload (s : State) : State :=
  if s.active then
    { s with
      active := false
      warps := s.warp :: s.warps
      blks := if s.blk.slot < 4 then s.blk :: s.blks else s.blks
      cores := s.core :: s.cores
      ctxs := s.ctx :: s.ctxs
      warp := Warp.none, blk := Block.none, core := Core.none, ctx := Ctx.none }
  else s

/-- The records of an agent of block (core, slot) of a context are loaded, its warp among them when it has one. -/
def State.load (s : State) (k : WKey) (core slot ctx : Nat) : State :=
  let s := s.unload
  { s with
    active := true
    warp := (s.warps.find? fun w => w.key = k).getD { Warp.none with key := k }
    warps := s.warps.filter fun w => !(w.key = k)
    blk := (s.blks.find? fun b => b.core = core && b.slot = slot).getD { Block.none with core := core, slot := slot }
    blks := s.blks.filter fun b => !(b.core = core && b.slot = slot)
    core := (s.cores.find? fun c => c.id = core).getD { Core.none with id := core }
    cores := s.cores.filter fun c => !(c.id = core)
    ctx := (s.ctxs.find? fun c => c.id = ctx).getD { Ctx.none with id := ctx }
    ctxs := s.ctxs.filter fun c => !(c.id = ctx) }

/-- Every warp of the machine, the loaded one first. -/
def State.allWarps (s : State) : List Warp := if s.active then s.warp :: s.warps else s.warps

def State.allBlks (s : State) : List Block := if s.active then s.blk :: s.blks else s.blks

def State.allCtxs (s : State) : List Ctx := if s.active then s.ctx :: s.ctxs else s.ctxs

def State.allCores (s : State) : List Core := if s.active then s.core :: s.cores else s.cores

/-- The context of a block (core, slot). -/
def State.ctxOfBlk (s : State) (core slot : Nat) : Nat := ((s.getBlk core slot).map (·.ctx)).getD 0

end Sys2Proof.Machine
end

