-- ==== Sys2Proof/Machine/Operands.lean ====
section
/-!
DEFINITION. Operand forms: the effective mask and the prefix (R55, R71), data-queue reads (R15, R105), lane-wise
results, pairs and quadruples (R72), and the addresses of the MEM format (R108, R111, R115).
-/
namespace Sys2Proof.Machine

/-! ## The prefix and the effective mask (R55, R71) -/

/-- A vector word without a prefix (R55). -/
def Pfx.plain : Pfx := ⟨0, 0, 0, 0, 0, 0⟩

/-- The prefix that governs the issuing word. -/
def State.pfx (s : State) : Pfx := s.issue.pfx.getD Pfx.plain

/-- The split's active mask. -/
def State.active0 (s : State) : Word := s.split.mask

/-- E: the prefix's mask ANDed with the active mask (R55, R71). -/
def State.E (s : State) : Word := s.M s.pfx.m.toNat &&& s.active0

def State.mode (s : State) : RMode := RMode.ofField s.pfx.r

/-! ## Sources -/

/-- Loads that waited to be pushed take the room that a queue of eight entries has (R15). -/
def Warp.fillDq (w : Warp) (n : Nat) : Warp :=
  let q := w.dq[n]?.getD []
  let ws := w.dqWait[n]?.getD []
  { w with dq := w.dq.setIfInBounds n (q ++ ws.take (8 - q.length)), dqWait := w.dqWait.setIfInBounds n (ws.drop (8 - q.length)) }

/-- A load pushes its entry; while the queue holds eight it waits with the access stream (R15, assumption 29). -/
def Warp.pushDq (w : Warp) (n : Nat) (e : DqEntry) : Warp :=
  ({ w with dqWait := w.dqWait.setIfInBounds n ((w.dqWait[n]?.getD []) ++ [e]) } : Warp).fillDq n

/-- Every load whose data go to a queue, pushed or waiting, looked at. -/
def Warp.mapDq (w : Warp) (f : List DqEntry → List DqEntry) : Warp :=
  { w with dq := w.dq.mapIdx fun _ q => f q, dqWait := w.dqWait.mapIdx fun _ q => f q }

/-- The oldest entry of a data queue; zeros when the queue is empty, which the issue of the chain has excluded (R15). -/
def State.popDq (s : State) (n : Nat) : VReg × State :=
  match s.warp.dq[n]?.getD [] with
  | [] => (zeroVec, s)
  | e :: r => (e.val, { s with warp := ({ s.warp with dq := s.warp.dq.setIfInBounds n r } : Warp).fillDq n })

/-- A vector source operand: a register, or a data queue when its dq bit is set (R55, R105). -/
def State.vsrc (s : State) (dqBit : Nat) (f : BitVec 6) : VReg × State :=
  if s.pfx.q.getLsbD dqBit then s.popDq (f.toNat % 4) else (s.V f.toNat, s)

/-- `va`, then `vb`: queue reads pop in this order (R105). -/
def State.vsrc2 (s : State) (a b : BitVec 6) : VReg × VReg × State :=
  let (x, s) := s.vsrc 2 a
  let (y, s) := s.vsrc 1 b
  (x, y, s)

/-- `va`, `vb` and the prefix's fourth operand. -/
def State.vsrc3 (s : State) (a b : BitVec 6) : VReg × VReg × VReg × State :=
  let (x, s) := s.vsrc 2 a
  let (y, s) := s.vsrc 1 b
  let (z, s) := s.vsrc 0 s.pfx.v
  (x, y, z, s)

/-- A 64-bit value per lane of an even pair (R13). -/
def State.VD (s : State) (n : Nat) (l : Fin 32) : DWord := (s.V (n + 1))[l] ++ (s.V n)[l]

/-! ## Destinations (R71) -/

/-- A vector result under E: with Z the other lanes are zeroed, without it they keep their values. -/
def State.putV (s : State) (lat : Option Nat) (n : Nat) (v : VReg) : State :=
  if s.pfx.z = 1 then s.put lat (s.warp.vdest n) allLanes (blend s.E v zeroVec)
  else s.put lat (s.warp.vdest n) s.E v

/-- A match-like result: lanes outside E are 0 whatever Z holds (R71, R102). -/
def State.putMatch (s : State) (lat : Option Nat) (n : Nat) (v : VReg) : State :=
  s.put lat (s.warp.vdest n) allLanes (blend s.E v zeroVec)

/-- A lane-mask result: bits of lanes outside E are 0 (R71). -/
def State.putLaneMask (s : State) (lat : Option Nat) (n : Nat) (f : Fin 32 → Bool) : State :=
  s.putM lat n (s.E &&& ((List.finRange 32).foldl (fun a i => if f i then a ||| (1#32 <<< i.val) else a) 0#32))

/-- A vector pair under E (R71, R13). -/
def State.putV2 (s : State) (lat : Option Nat) (n : Nat) (lo hi : VReg) : State :=
  if s.pfx.z = 1 then s.put2 lat (s.warp.vdest n) (s.warp.vdest (n + 1)) allLanes (blend s.E lo zeroVec) (blend s.E hi zeroVec)
  else s.put2 lat (s.warp.vdest n) (s.warp.vdest (n + 1)) s.E lo hi

/-- Low halves and high halves of a 64-bit value per lane. -/
def State.putVD (s : State) (lat : Option Nat) (n : Nat) (f : Fin 32 → DWord) : State :=
  s.putV2 lat n (Vector.ofFn fun i => (f i).setWidth 32) (Vector.ofFn fun i => ((f i) >>> 32).setWidth 32)

/-! ## Lane-wise words -/

def vecMap (f : Word → Word) (a : VReg) : VReg := Vector.ofFn fun i => f a[i]
def vecMap2 (f : Word → Word → Word) (a b : VReg) : VReg := Vector.ofFn fun i => f a[i] b[i]
def vecMap3 (f : Word → Word → Word → Word) (x y z : VReg) : VReg := Vector.ofFn fun i => f x[i] y[i] z[i]

/-- `vd := f(va)`. -/
def vec1 (lat : Option Nat) (f : Word → Word) (d a : BitVec 6) (s : State) : State :=
  let (x, s) := s.vsrc 2 a
  s.putV lat d.toNat (vecMap f x)

/-- `vd := f(va, vb)`. -/
def vec2 (lat : Option Nat) (f : Word → Word → Word) (d a b : BitVec 6) (s : State) : State :=
  let (x, y, s) := s.vsrc2 a b
  s.putV lat d.toNat (vecMap2 f x y)

/-- `vd := f(va, vb, old vd)`. -/
def vecAcc (lat : Option Nat) (f : Word → Word → Word → Word) (d a b : BitVec 6) (s : State) : State :=
  let (x, y, s) := s.vsrc2 a b
  s.putV lat d.toNat (vecMap3 f x y (s.V d.toNat))

/-- `md := f(va, vb)` per lane (R83). -/
def vecCmp (lat : Option Nat) (f : Word → Word → Bool) (m : BitVec 3) (a b : BitVec 6) (s : State) : State :=
  let (x, y, s) := s.vsrc2 a b
  s.putLaneMask lat m.toNat fun i => f x[i] y[i]

/-- Halves and bytes of a lane (R9). -/
def half (x : Word) (h : Nat) : BitVec 16 := x.extractLsb' (16 * h) 16
def byteOf (x : Word) (i : Nat) : BitVec 8 := x.extractLsb' (8 * i) 8
def ofHalves (lo hi : BitVec 16) : Word := hi ++ lo
def ofByteFn (f : Nat → BitVec 8) : Word := f 3 ++ f 2 ++ f 1 ++ f 0

/-- A result half by half (R85). -/
def halves2 (f : BitVec 16 → BitVec 16 → BitVec 16) (x y : Word) : Word :=
  ofHalves (f (half x 0) (half y 0)) (f (half x 1) (half y 1))

/-- A result byte by byte (R87). -/
def bytes2 (f : BitVec 8 → BitVec 8 → BitVec 8) (x y : Word) : Word :=
  ofByteFn fun i => f (byteOf x i) (byteOf y i)

/-! ## Outcomes -/

/-- A word that completes: the prefix latch is spent. -/
def done (s : State) : Host.Outcome State Fault Refusal := .next { s with issue := { s.issue with pfx := none } }

/-! ## The MEM format (R52, R108, R111, R115) -/

/-- Access size in bytes. -/
def memSize (z : BitVec 2) : Nat := 2 ^ z.toNat

/-- The address of a lane, modulo 2^64 (R108); `unit` is u, `vector` tells `vld` and `vst` from `sld` and `sst`. -/
def memAddr (b : DWord) (m z : BitVec 2) (i : BitVec 4) (vector : Bool) (lane : Nat) : DWord :=
  let sz := memSize z
  let u := if vector then 16 else sz
  match m.toNat with
  | 0 => b + BitVec.ofNat 64 (i.toNat * u + lane * sz)
  | 3 => b + BitVec.ofNat 64 (lane * sz * (i.toNat + 1))
  | _ => b + BitVec.ofNat 64 (lane * sz)

/-- LEN and BASE of a modulo register (R14). -/
def qLen (q : DWord) : Nat := (q.extractLsb' 24 24).toNat
def qBase (q : DWord) : Nat := (q.extractLsb' 0 24).toNat

/-- The wrapped base of R111 and R227. -/
def wrapBase (b q : DWord) (inc : Nat) : DWord :=
  let o : Int := (b.extractLsb' 0 24).toNat
  let nu := (qBase q : Int) + (o - qBase q + inc) % (qLen q : Int)
  b.extractLsb' 24 40 ++ BitVec.ofInt 24 nu

/-- The new base of a post-increment, or none (R108). -/
def memNewBase (b : DWord) (m z : BitVec 2) (i : BitVec 4) (vector : Bool) (q : Nat → DWord) : Option DWord :=
  let sz := memSize z
  let u := if vector then 16 else sz
  match m.toNat with
  | 1 => some (b + BitVec.ofNat 64 (i.toNat * u))
  | 2 => some (wrapBase b (q (i.toNat / 4)) ((if vector then 32 else sz) * 2 ^ (i.toNat % 4)))
  | _ => none

/-- The address of a lane of a gather or scatter (R115). -/
def gatherAddr (b : DWord) (signed : Bool) (sh : Nat) (x : Word) : DWord :=
  b + ((if signed then x.signExtend 64 else x.setWidth 64) <<< sh)

end Sys2Proof.Machine
end

