-- ==== Sys2Proof/Machine/Flags.lean ====
section
/-!
DEFINITION. Predicates and the control-flow signature: the conditions of `scmp` and `scmpi` (R78), the truth tables of
`plog` (R79), branch conditions (R127), float compares (R91), and the folds of `sig` (R328, R220, R138).
-/
namespace Sys2Proof.Machine

/-- The compare of R78 on n-bit values; codes 12 to 15 are reserved and read false. -/
def compareCc {n : Nat} (c : Nat) (a b : BitVec n) : Bool :=
  match c with
  | 0 => a == b
  | 1 => a != b
  | 2 => a.slt b
  | 3 => a.sle b
  | 4 => b.slt a
  | 5 => b.sle a
  | 6 => a.ult b
  | 7 => a.ule b
  | 8 => b.ult a
  | 9 => b.ule a
  | 10 => a &&& b != 0
  | 11 => a &&& b == 0
  | _ => false

/-- The immediate of `scmpi`: sign-extended for cc 0 to 5, zero-extended above (R78). -/
def cmpImm (n : Nat) (c : BitVec 4) (i : BitVec 7) : BitVec n := if c.toNat < 6 then i.signExtend n else i.setWidth n

/-- tt bit (2 × pa + pb) (R79). -/
def truth (u : BitVec 4) (a b : Bool) : Bool := u.getLsbD (2 * a.toNat + b.toNat)

/-- `plog.m`: the truth table bit by bit (R79). -/
def truthMask (u : BitVec 4) (a b : Word) : Word :=
  (if u.getLsbD 3 then a &&& b else 0) ||| (if u.getLsbD 2 then a &&& ~~~b else 0) |||
  (if u.getLsbD 1 then ~~~a &&& b else 0) ||| (if u.getLsbD 0 then ~~~a &&& ~~~b else 0)

/-- The float compare conditions of R91. -/
def fcompare (c : Nat) (x y : FVal) : Bool :=
  match c with
  | 0 => x.numEq y
  | 1 => x.numLt y
  | 2 => x.numLt y || x.numEq y
  | _ => !x.numEq y

/-- sig := rotl32(sig, 7) XOR word (R328). -/
def foldSig (sig word : Word) : Word := sig.rotateLeft 7 ^^^ word

/-- A fold undone (R220). -/
def unfoldSig (sig word : Word) : Word := (sig ^^^ word).rotateRight 7

/-- The check value of a signature (R138). -/
def sigCheck (sig : Word) : Half := sig.extractLsb' 16 16 ^^^ sig.extractLsb' 0 16

end Sys2Proof.Machine
end

