-- ==== Sys2Proof/Machine/Uniform.lean ====
section
/-!
DEFINITION. Uniform computation: majors 0x01 to 0x05 and 0x07, and the predicate logic of 0x06 (R74 to R80).
The special registers of 0x06 and 0x3A stand in Special registers' own file.
-/
namespace Sys2Proof.Machine

/-! ## Field specs (R74) -/

/-- Extract bits pos + w − 1 down to pos, zero- or sign-extended; 0 when w = 0. -/
def extractField {n : Nat} (x : BitVec n) (pos width : Nat) (signed : Bool) : BitVec n :=
  let w := min width (n - pos)
  if w = 0 then 0
  else
    let v := (x >>> pos).toNat % 2 ^ w
    if signed then BitVec.ofInt n (sextNat v w) else BitVec.ofNat n v

/-- Replace bits pos + w − 1 down to pos of `x` with the low bits of `v`. -/
def insertField {n : Nat} (x v : BitVec n) (pos width : Nat) : BitVec n :=
  let w := min width (n - pos)
  let m : BitVec n := BitVec.ofNat n ((2 ^ w - 1) <<< pos)
  (x &&& ~~~m) ||| ((v <<< pos) &&& m)

def specPos (f : Word) : Nat := f.toNat % 32
def specWidth (f : Word) : Nat := (f.toNat >>> 8) % 64
def specSign (f : Word) : Bool := f.getLsbD 16

/-- Extract by a 32-bit spec. -/
def extract32 (x f : Word) : Word := extractField x (specPos f) (specWidth f) (specSign f)
/-- Extract by a spec in the 64-bit form: pos in [5:0], width in [14:8] (R75). -/
def extract64 (x : DWord) (f : Word) : DWord := extractField x (f.toNat % 64) ((f.toNat >>> 8) % 128) (specSign f)
def insert32 (x v f : Word) : Word := insertField x v (specPos f) (specWidth f)

/-! ## Shifts and counts (R75, R81) -/

def shl {n : Nat} (a : BitVec n) (c : Nat) : BitVec n := if c ≥ n then 0 else a <<< c
def shr {n : Nat} (a : BitVec n) (c : Nat) : BitVec n := if c ≥ n then 0 else a >>> c
def sar {n : Nat} (a : BitVec n) (c : Nat) : BitVec n := a.sshiftRight (min c (n - 1))
def clz {n : Nat} (a : BitVec n) : BitVec n := if a = 0 then BitVec.ofNat n n else BitVec.ofNat n (n - 1 - a.toNat.log2)
def popcnt {n : Nat} (a : BitVec n) : BitVec n := BitVec.ofNat n (popc a.toNat n)
def smin {n : Nat} (a b : BitVec n) : BitVec n := if a.slt b then a else b
def smax {n : Nat} (a b : BitVec n) : BitVec n := if a.slt b then b else a
def umin {n : Nat} (a b : BitVec n) : BitVec n := if a.ult b then a else b
def umax {n : Nat} (a b : BitVec n) : BitVec n := if a.ult b then b else a

def mulhS (a b : Word) : Word := BitVec.ofInt 32 ((a.toInt * b.toInt) / 2 ^ 32)
def mulhU (a b : Word) : Word := BitVec.ofNat 32 ((a.toNat * b.toNat) >>> 32)

/-- Division never traps (R76). -/
def divS (a b : Word) : Word := if b = 0 then allLanes else BitVec.ofInt 32 (a.toInt.tdiv b.toInt)
def divU (a b : Word) : Word := if b = 0 then allLanes else a / b
def remS (a b : Word) : Word := if b = 0 then a else BitVec.ofInt 32 (a.toInt.tmod b.toInt)
def remU (a b : Word) : Word := if b = 0 then a else a % b

/-! ## The two-address unit (R75): class U1 -/

/-- `sd := f(sd, sa)`, or the pair form. -/
def uni2 (f : Word → Word → Word) (g : DWord → DWord → DWord) (d a : BitVec 7) (x : BitVec 1) (s : State) : State :=
  if x = 1 then s.putUD latU d.toNat (g (s.UD d.toNat) (s.UD a.toNat))
  else s.putU latU d.toNat (f (s.U d.toNat) (s.U a.toNat))

/-- `sd := f(sd, sa)`, 32-bit only. -/
def uni1 (f : Word → Word → Word) (d a : BitVec 7) (s : State) : State :=
  s.putU latU d.toNat (f (s.U d.toNat) (s.U a.toNat))

/-- A second operand that is read from `sa` alone in both forms: shift counts and the spec of `sbfe` (R75). -/
def uniLow (f : Word → Word → Word) (g : DWord → Word → DWord) (d a : BitVec 7) (x : BitVec 1) (s : State) : State :=
  if x = 1 then s.putUD latU d.toNat (g (s.UD d.toNat) (s.U a.toNat))
  else s.putU latU d.toNat (f (s.U d.toNat) (s.U a.toNat))

def execSadd (d a : BitVec 7) (x : BitVec 1) (s : State) : Host.Outcome State Fault Refusal :=
  done (uni2 (fun a b => a + b) (fun a b => a + b) d a x s)
def execSsub (d a : BitVec 7) (x : BitVec 1) (s : State) : Host.Outcome State Fault Refusal :=
  done (uni2 (fun a b => a - b) (fun a b => a - b) d a x s)
def execSmul (d a : BitVec 7) (x : BitVec 1) (s : State) : Host.Outcome State Fault Refusal :=
  done (uni2 (fun a b => a * b) (fun a b => a * b) d a x s)
def execSmulhI32 (d a : BitVec 7) (s : State) : Host.Outcome State Fault Refusal := done (uni1 mulhS d a s)
def execSmulhN32 (d a : BitVec 7) (s : State) : Host.Outcome State Fault Refusal := done (uni1 mulhU d a s)
def execSdivI32 (d a : BitVec 7) (s : State) : Host.Outcome State Fault Refusal := done (uni1 divS d a s)
def execSdivN32 (d a : BitVec 7) (s : State) : Host.Outcome State Fault Refusal := done (uni1 divU d a s)
def execSremI32 (d a : BitVec 7) (s : State) : Host.Outcome State Fault Refusal := done (uni1 remS d a s)
def execSremN32 (d a : BitVec 7) (s : State) : Host.Outcome State Fault Refusal := done (uni1 remU d a s)
def execSminI (d a : BitVec 7) (x : BitVec 1) (s : State) : Host.Outcome State Fault Refusal :=
  done (uni2 (smin) (smin) d a x s)
def execSminN (d a : BitVec 7) (x : BitVec 1) (s : State) : Host.Outcome State Fault Refusal :=
  done (uni2 (umin) (umin) d a x s)
def execSmaxI (d a : BitVec 7) (x : BitVec 1) (s : State) : Host.Outcome State Fault Refusal :=
  done (uni2 (smax) (smax) d a x s)
def execSmaxN (d a : BitVec 7) (x : BitVec 1) (s : State) : Host.Outcome State Fault Refusal :=
  done (uni2 (umax) (umax) d a x s)
def execSand (d a : BitVec 7) (x : BitVec 1) (s : State) : Host.Outcome State Fault Refusal :=
  done (uni2 (fun a b => a &&& b) (fun a b => a &&& b) d a x s)
def execSor (d a : BitVec 7) (x : BitVec 1) (s : State) : Host.Outcome State Fault Refusal :=
  done (uni2 (fun a b => a ||| b) (fun a b => a ||| b) d a x s)
def execSxor (d a : BitVec 7) (x : BitVec 1) (s : State) : Host.Outcome State Fault Refusal :=
  done (uni2 (fun a b => a ^^^ b) (fun a b => a ^^^ b) d a x s)
def execSandn (d a : BitVec 7) (x : BitVec 1) (s : State) : Host.Outcome State Fault Refusal :=
  done (uni2 (fun a b => a &&& ~~~b) (fun a b => a &&& ~~~b) d a x s)
def execSshl (d a : BitVec 7) (x : BitVec 1) (s : State) : Host.Outcome State Fault Refusal :=
  done (uniLow (fun a c => shl a c.toNat) (fun a c => shl a c.toNat) d a x s)
def execSshr (d a : BitVec 7) (x : BitVec 1) (s : State) : Host.Outcome State Fault Refusal :=
  done (uniLow (fun a c => shr a c.toNat) (fun a c => shr a c.toNat) d a x s)
def execSsar (d a : BitVec 7) (x : BitVec 1) (s : State) : Host.Outcome State Fault Refusal :=
  done (uniLow (fun a c => sar a c.toNat) (fun a c => sar a c.toNat) d a x s)
def execSbfe (d a : BitVec 7) (x : BitVec 1) (s : State) : Host.Outcome State Fault Refusal := done (uniLow extract32 extract64 d a x s)
def execSbfi (d a : BitVec 7) (s : State) : Host.Outcome State Fault Refusal :=
  done (s.putU latU d.toNat (insert32 (s.U d.toNat) (s.U a.toNat) (s.U (a.toNat + 1))))
def execSclz (d a : BitVec 7) (x : BitVec 1) (s : State) : Host.Outcome State Fault Refusal :=
  done (uni2 (fun a b => (fun _ => clz b) a) (fun a b => (fun _ => clz b) a) d a x s)
def execSpopc (d a : BitVec 7) (x : BitVec 1) (s : State) : Host.Outcome State Fault Refusal :=
  done (uni2 (fun a b => (fun _ => popcnt b) a) (fun a b => (fun _ => popcnt b) a) d a x s)
def execSmov (d a : BitVec 7) (x : BitVec 1) (s : State) : Host.Outcome State Fault Refusal :=
  done (uni2 (fun a b => (fun _ => b) a) (fun a b => (fun _ => b) a) d a x s)
/-- b if pK is true, else a. -/
def execSsel (d a : BitVec 7) (x : BitVec 1) (p : BitVec 3) (s : State) : Host.Outcome State Fault Refusal :=
  done (uni2 (fun a b => if s.P p.toNat then b else a) (fun a b => if s.P p.toNat then b else a) d a x s)

/-! ## Immediates and compares (R77, R78) -/

def execSaddi (d : BitVec 7) (i : BitVec 15) (s : State) : Host.Outcome State Fault Refusal :=
  done (s.putU latU d.toNat (s.U d.toNat + i.signExtend 32))

def execSmovi (d : BitVec 7) (i : BitVec 15) (s : State) : Host.Outcome State Fault Refusal := done (s.putU latU d.toNat (i.signExtend 32))

def execSmovh (d : BitVec 7) (i : BitVec 15) (s : State) : Host.Outcome State Fault Refusal :=
  done (s.putU latU d.toNat ((s.U d.toNat <<< 15) ||| i.setWidth 32))

def execScmp (p : BitVec 3) (c : BitVec 4) (a b : BitVec 7) (x : BitVec 1) (s : State) : Host.Outcome State Fault Refusal :=
  done (s.putP latU p.toNat
    (if x = 1 then compareCc c.toNat (s.UD a.toNat) (s.UD b.toNat) else compareCc c.toNat (s.U a.toNat) (s.U b.toNat)))

def execScmpi (p : BitVec 3) (c : BitVec 4) (a i : BitVec 7) (x : BitVec 1) (s : State) : Host.Outcome State Fault Refusal :=
  done (s.putP latU p.toNat
    (if x = 1 then compareCc c.toNat (s.UD a.toNat) (cmpImm 64 c i) else compareCc c.toNat (s.U a.toNat) (cmpImm 32 c i)))

/-! ## Predicate logic (R79) -/

def execPlog (p b a : BitVec 3) (u : BitVec 4) (s : State) : Host.Outcome State Fault Refusal :=
  done (s.putP latU p.toNat (truth u (s.P a.toNat) (s.P b.toNat)))

/-- All 32 bits of the destination mask are written (R71). -/
def execPlogM (p b a : BitVec 3) (u : BitVec 4) (s : State) : Host.Outcome State Fault Refusal :=
  done (s.putM latU p.toNat (truthMask u (s.M a.toNat) (s.M b.toNat)))

end Sys2Proof.Machine
end

