-- ==== Sys2Proof/Machine/Vector.lean ====
section
/-!
DEFINITION. Vector integer computation: majors 0x10 to 0x17 (R81 to R88).
-/
namespace Sys2Proof.Machine

/-! ## 32-bit integer: major 0x10 (R81), class V4 -/

def absdS (a b : Word) : Word := BitVec.ofNat 32 (a.toInt - b.toInt).natAbs

def execVadd (d a b : BitVec 6) (s : State) : Host.Outcome State Fault Refusal := done (vec2 latV4 (fun a b => a + b) d a b s)
def execVsub (d a b : BitVec 6) (s : State) : Host.Outcome State Fault Refusal := done (vec2 latV4 (fun a b => a - b) d a b s)
def execVmul (d a b : BitVec 6) (s : State) : Host.Outcome State Fault Refusal := done (vec2 latV4 (fun a b => a * b) d a b s)
def execVmulhI32 (d a b : BitVec 6) (s : State) : Host.Outcome State Fault Refusal := done (vec2 latV4 (mulhS) d a b s)
def execVmulhN32 (d a b : BitVec 6) (s : State) : Host.Outcome State Fault Refusal := done (vec2 latV4 (mulhU) d a b s)
/-- The fourth operand comes from the prefix. -/
def execVmad (d a b : BitVec 6) (s : State) : Host.Outcome State Fault Refusal :=
  let (x, y, z, s) := s.vsrc3 a b
  done (s.putV latV4 d.toNat (vecMap3 (fun a b c => a * b + c) x y z))
def execVabsdI32 (d a b : BitVec 6) (s : State) : Host.Outcome State Fault Refusal := done (vec2 latV4 (absdS) d a b s)
def execVand (d a b : BitVec 6) (s : State) : Host.Outcome State Fault Refusal := done (vec2 latV4 (fun a b => a &&& b) d a b s)
def execVor (d a b : BitVec 6) (s : State) : Host.Outcome State Fault Refusal := done (vec2 latV4 (fun a b => a ||| b) d a b s)
def execVxor (d a b : BitVec 6) (s : State) : Host.Outcome State Fault Refusal := done (vec2 latV4 (fun a b => a ^^^ b) d a b s)
def execVandn (d a b : BitVec 6) (s : State) : Host.Outcome State Fault Refusal := done (vec2 latV4 (fun a b => a &&& ~~~b) d a b s)
def execVshl (d a b : BitVec 6) (s : State) : Host.Outcome State Fault Refusal := done (vec2 latV4 (fun a b => shl a b.toNat) d a b s)
def execVshr (d a b : BitVec 6) (s : State) : Host.Outcome State Fault Refusal := done (vec2 latV4 (fun a b => shr a b.toNat) d a b s)
def execVsar (d a b : BitVec 6) (s : State) : Host.Outcome State Fault Refusal := done (vec2 latV4 (fun a b => sar a b.toNat) d a b s)
def execVclz (d a : BitVec 6) (s : State) : Host.Outcome State Fault Refusal := done (vec1 latV4 (clz) d a s)
def execVpopc (d a : BitVec 6) (s : State) : Host.Outcome State Fault Refusal := done (vec1 latV4 (popcnt) d a s)

/-! ## Immediates: majors 0x11 and 0x12 (R82) -/

def execVaddi (d a : BitVec 6) (i : BitVec 10) (s : State) : Host.Outcome State Fault Refusal :=
  done (vec1 latV4 (fun a => a + i.signExtend 32) d a s)

def execVmovi (d : BitVec 6) (i : BitVec 15) (s : State) : Host.Outcome State Fault Refusal :=
  done (s.putV latV4 d.toNat (splat (i.signExtend 32)))

def execVmovh (d : BitVec 6) (i : BitVec 15) (s : State) : Host.Outcome State Fault Refusal :=
  done (s.putV latV4 d.toNat (vecMap (fun a => (a <<< 15) ||| i.setWidth 32) (s.V d.toNat)))

/-! ## Packed 16-bit: major 0x13 (R85, R86) -/

def execVaddH2 (d a b : BitVec 6) (s : State) : Host.Outcome State Fault Refusal := done (vec2 latV4 (halves2 (fun x y => x + y)) d a b s)
def execVaddsH2 (d a b : BitVec 6) (s : State) : Host.Outcome State Fault Refusal := done (vec2 latV4 (halves2 (fun x y => BitVec.ofInt 16 (satS 16 (x.toInt + y.toInt)))) d a b s)
def execVsubH2 (d a b : BitVec 6) (s : State) : Host.Outcome State Fault Refusal := done (vec2 latV4 (halves2 (fun x y => x - y)) d a b s)
def execVsubsH2 (d a b : BitVec 6) (s : State) : Host.Outcome State Fault Refusal := done (vec2 latV4 (halves2 (fun x y => BitVec.ofInt 16 (satS 16 (x.toInt - y.toInt)))) d a b s)
def execVminH2 (d a b : BitVec 6) (s : State) : Host.Outcome State Fault Refusal := done (vec2 latV4 (halves2 smin) d a b s)
def execVmaxH2 (d a b : BitVec 6) (s : State) : Host.Outcome State Fault Refusal := done (vec2 latV4 (halves2 smax) d a b s)

/-- win of R86: 1 when y > x, a tie chooses `va`. -/
def acsWin (x y : Word) (h : Nat) : Bool := (half x h).slt (half y h)

def acsNew (x y : Word) : Word :=
  ofHalves (if acsWin x y 0 then half y 0 else half x 0) (if acsWin x y 1 then half y 1 else half x 1)

def acsRecord (x y old : Word) : Word :=
  (old <<< 2) ||| (if acsWin x y 1 then 2#32 else 0#32) ||| (if acsWin x y 0 then 1#32 else 0#32)

/-- Writes `vd` and its partner `vd+1`. -/
def execVacsH2 (d a b : BitVec 6) (s : State) : Host.Outcome State Fault Refusal :=
  let (x, y, s) := s.vsrc2 a b
  let rec1 := vecMap3 acsRecord x y (s.V (d.toNat + 1))
  done ((s.putV latV4 d.toNat (vecMap2 acsNew x y)).putV latV4 (d.toNat + 1) rec1)

/-! ## Packed 8-bit: major 0x14 (R87) -/

def execVaddB4 (d a b : BitVec 6) (s : State) : Host.Outcome State Fault Refusal := done (vec2 latV4 (bytes2 (fun x y => x + y)) d a b s)
def execVaddsB4 (d a b : BitVec 6) (s : State) : Host.Outcome State Fault Refusal := done (vec2 latV4 (bytes2 (fun x y => BitVec.ofInt 8 (satS 8 (x.toInt + y.toInt)))) d a b s)
def execVminB4 (d a b : BitVec 6) (s : State) : Host.Outcome State Fault Refusal := done (vec2 latV4 (bytes2 smin) d a b s)
def execVmaxB4 (d a b : BitVec 6) (s : State) : Host.Outcome State Fault Refusal := done (vec2 latV4 (bytes2 smax) d a b s)
def execVabsdB4 (d a b : BitVec 6) (s : State) : Host.Outcome State Fault Refusal := done (vec2 latV4 (bytes2 (fun x y => BitVec.ofNat 8 (x.toInt - y.toInt).natAbs)) d a b s)

/-! ## Dot products: major 0x15 (R88), class V6 -/

/-- elt(x, i, w, signed). -/
def dotElt (x : Word) (i w : Nat) (signed : Bool) : Int :=
  let v := (x.toNat >>> (w * i)) % 2 ^ w
  if signed then sextNat v w else v

def dotSum (n w : Nat) (sa sb : Bool) (x y : Word) : Int :=
  (List.range n).foldl (fun a i => a + dotElt x i w sa * dotElt y i w sb) 0

def dotLane (n w : Nat) (sa sb sat : Bool) (x y acc : Word) : Word :=
  let t := acc.toInt + dotSum n w sa sb x y
  if sat then BitVec.ofInt 32 (satS 32 t) else BitVec.ofInt 32 t

def execVdot4 (d a b : BitVec 6) (x y z : BitVec 1) (s : State) : Host.Outcome State Fault Refusal :=
  done (vecAcc latV6 (dotLane 4 8 (x == 1) (y == 1) (z == 1)) d a b s)

def execVdot8 (d a b : BitVec 6) (x y z : BitVec 1) (s : State) : Host.Outcome State Fault Refusal :=
  done (vecAcc latV6 (dotLane 8 4 (x == 1) (y == 1) (z == 1)) d a b s)

/-! ## Compare, select, move and broadcast: major 0x16 (R83), class V4 -/

def execVcmpEqI32 (m : BitVec 3) (a b : BitVec 6) (s : State) : Host.Outcome State Fault Refusal := done (vecCmp latV4 (fun a b => a == b) m a b s)
def execVcmpNeI32 (m : BitVec 3) (a b : BitVec 6) (s : State) : Host.Outcome State Fault Refusal := done (vecCmp latV4 (fun a b => a != b) m a b s)
def execVcmpLtI32 (m : BitVec 3) (a b : BitVec 6) (s : State) : Host.Outcome State Fault Refusal := done (vecCmp latV4 (fun a b => a.slt b) m a b s)
def execVcmpLeI32 (m : BitVec 3) (a b : BitVec 6) (s : State) : Host.Outcome State Fault Refusal := done (vecCmp latV4 (fun a b => a.sle b) m a b s)
def execVcmpLtN32 (m : BitVec 3) (a b : BitVec 6) (s : State) : Host.Outcome State Fault Refusal := done (vecCmp latV4 (fun a b => a.ult b) m a b s)
def execVcmpLeN32 (m : BitVec 3) (a b : BitVec 6) (s : State) : Host.Outcome State Fault Refusal := done (vecCmp latV4 (fun a b => a.ule b) m a b s)
/-- mk is named by bits [11:9] of the prefix, the low three of its `v4` field. -/
def execVsel (d a b : BitVec 6) (s : State) : Host.Outcome State Fault Refusal :=
  let mk := s.M (s.pfx.v.toNat % 8)
  let (x, y, s) := s.vsrc2 a b
  done (s.putV latV4 d.toNat (blend mk x y))

def execVmov (d a : BitVec 6) (s : State) : Host.Outcome State Fault Refusal := done (vec1 latV4 (fun a => a) d a s)
/-- Lane n is read whether or not it is in E. -/
def execVbcast (d a : BitVec 6) (n : BitVec 5) (s : State) : Host.Outcome State Fault Refusal :=
  let (x, s) := s.vsrc 2 a
  done (s.putV latV4 d.toNat (splat (x[n.toNat]?.getD 0)))

def execVminI32 (d a b : BitVec 6) (s : State) : Host.Outcome State Fault Refusal := done (vec2 latV4 (smin) d a b s)
def execVminN32 (d a b : BitVec 6) (s : State) : Host.Outcome State Fault Refusal := done (vec2 latV4 (umin) d a b s)
def execVmaxI32 (d a b : BitVec 6) (s : State) : Host.Outcome State Fault Refusal := done (vec2 latV4 (smax) d a b s)
def execVmaxN32 (d a b : BitVec 6) (s : State) : Host.Outcome State Fault Refusal := done (vec2 latV4 (umax) d a b s)

/-! ## Bit fields, packing and unpacking: major 0x17 (R84) -/

def execVbfe (d a : BitVec 6) (b : BitVec 7) (s : State) : Host.Outcome State Fault Refusal :=
  done (vec1 latV4 (fun x => extract32 x (s.U b.toNat)) d a s)

def execVbfi (d a : BitVec 6) (b : BitVec 7) (s : State) : Host.Outcome State Fault Refusal :=
  let (x, s) := s.vsrc 2 a
  done (s.putV latV4 d.toNat (vecMap2 (fun x old => insert32 old x (s.U b.toNat)) x (s.V d.toNat)))

/-- The narrowing that bits [1:0] of `sb` choose. -/
def narrow (n : Nat) (sel : Word) (x : Word) : BitVec n :=
  match sel.toNat % 4 with
  | 1 => BitVec.ofInt n (satS n x.toInt)
  | 2 => BitVec.ofInt n (satU n x.toInt)
  | _ => x.setWidth n

def execVpackH2 (d a : BitVec 6) (b : BitVec 7) (s : State) : Host.Outcome State Fault Refusal :=
  let f := narrow 16 (s.U b.toNat)
  done (s.putV latV4 d.toNat (vecMap2 (fun x y => ofHalves (f x) (f y)) (s.V a.toNat) (s.V (a.toNat + 1))))

def execVpackB4 (d a : BitVec 6) (b : BitVec 7) (s : State) : Host.Outcome State Fault Refusal :=
  let f := narrow 8 (s.U b.toNat)
  done (s.putV latV4 d.toNat (Vector.ofFn fun i => ofByteFn fun k => f (s.V (a.toNat + k))[i]))

/-- Two halves widened into a pair. -/
def unpack16 (f : BitVec 16 → Word) (d a : BitVec 6) (s : State) : State :=
  let (x, s) := s.vsrc 2 a
  (s.putV latV4 d.toNat (vecMap (fun x => f (half x 0)) x)).putV latV4 (d.toNat + 1) (vecMap (fun x => f (half x 1)) x)

/-- Four bytes widened into a quadruple. -/
def unpack8 (f : BitVec 8 → Word) (d a : BitVec 6) (s : State) : State :=
  let (x, s) := s.vsrc 2 a
  (List.range 4).foldl (fun s k => s.putV latV4 (d.toNat + k) (vecMap (fun x => f (byteOf x k)) x)) s

def execVunpackI16 (d a : BitVec 6) (s : State) : Host.Outcome State Fault Refusal := done (unpack16 (fun x => x.signExtend 32) d a s)
def execVunpackN16 (d a : BitVec 6) (s : State) : Host.Outcome State Fault Refusal := done (unpack16 (fun x => x.setWidth 32) d a s)
def execVunpackI8 (d a : BitVec 6) (s : State) : Host.Outcome State Fault Refusal := done (unpack8 (fun x => x.signExtend 32) d a s)
def execVunpackN8 (d a : BitVec 6) (s : State) : Host.Outcome State Fault Refusal := done (unpack8 (fun x => x.setWidth 32) d a s)

end Sys2Proof.Machine
end

