-- ==== Sys2Proof/Machine/Float.lean ====
section
/-!
DEFINITION. Floating-point computation: majors 0x18 to 0x1B and 0x1E (R89 to R91), conversions 0x1C (R92, R93).
-/
namespace Sys2Proof.Machine

/-! ## Elements -/

/-- An operation on codes of a format, lane-wise for FP32 and half-wise for the packed formats. -/
def lane32 (f : Nat → Nat → Nat) (x y : Word) : Word := BitVec.ofNat 32 (f x.toNat y.toNat)
def lane16 (f : Nat → Nat → Nat) : Word → Word → Word := halves2 fun x y => BitVec.ofNat 16 (f x.toNat y.toNat)

def fadd (f : Fmt) (m : RMode) (x y : Nat) : Nat := f.rnd m ((f.decode x).add m (f.decode y))
def fsub (f : Fmt) (m : RMode) (x y : Nat) : Nat := f.rnd m ((f.decode x).add m (f.decode y).neg)
def fmul (f : Fmt) (m : RMode) (x y : Nat) : Nat := f.rnd m ((f.decode x).mul (f.decode y))
/-- Minimum and maximum do not round: the chosen value is one of the format (R89). -/
def fmin (f : Fmt) (x y : Nat) : Nat := f.rnd .rn (FVal.min (f.decode x) (f.decode y))
def fmax (f : Fmt) (x y : Nat) : Nat := f.rnd .rn (FVal.max (f.decode x) (f.decode y))
def fabs (f : Fmt) (x _y : Nat) : Nat := f.rnd .rn (f.decode x).abs
def fneg (f : Fmt) (x _y : Nat) : Nat := f.rnd .rn (f.decode x).neg
/-- The magnitude of x with the sign bit of y as it stands (R89). -/
def fcsgn (f : Fmt) (x y : Nat) : Nat :=
  let v := (f.decode x).abs
  f.rnd .rn (if (y >>> (f.eb + f.mb)) % 2 = 1 then v.neg else v)

/-- x × y + c, c − x × y and x × y − c, rounded once (R90). -/
def ffma (f : Fmt) (m : RMode) (negP negC : Bool) (x y c : Nat) : Nat :=
  let p := (f.decode x).mul (f.decode y)
  let c := f.decode c
  f.rnd m ((if negP then p.neg else p).add m (if negC then c.neg else c))

def execVfaddF32 (d a b : BitVec 6) (s : State) : Host.Outcome State Fault Refusal := done (vec2 latV6 (lane32 (fadd fp32 s.mode)) d a b s)
def execVfsubF32 (d a b : BitVec 6) (s : State) : Host.Outcome State Fault Refusal := done (vec2 latV6 (lane32 (fsub fp32 s.mode)) d a b s)
def execVfmulF32 (d a b : BitVec 6) (s : State) : Host.Outcome State Fault Refusal := done (vec2 latV6 (lane32 (fmul fp32 s.mode)) d a b s)
def execVfminF32 (d a b : BitVec 6) (s : State) : Host.Outcome State Fault Refusal := done (vec2 latV6 (lane32 (fmin fp32)) d a b s)
def execVfmaxF32 (d a b : BitVec 6) (s : State) : Host.Outcome State Fault Refusal := done (vec2 latV6 (lane32 (fmax fp32)) d a b s)
def execVfabsF32 (d a : BitVec 6) (s : State) : Host.Outcome State Fault Refusal := done (vec1 latV6 (fun x => lane32 (fabs fp32) x x) d a s)
def execVfnegF32 (d a : BitVec 6) (s : State) : Host.Outcome State Fault Refusal := done (vec1 latV6 (fun x => lane32 (fneg fp32) x x) d a s)
def execVfcsgnF32 (d a b : BitVec 6) (s : State) : Host.Outcome State Fault Refusal := done (vec2 latV6 (lane32 (fcsgn fp32)) d a b s)

def execVfaddH2 (d a b : BitVec 6) (s : State) : Host.Outcome State Fault Refusal := done (vec2 latV6 (lane16 (fadd fp16 s.mode)) d a b s)
def execVfsubH2 (d a b : BitVec 6) (s : State) : Host.Outcome State Fault Refusal := done (vec2 latV6 (lane16 (fsub fp16 s.mode)) d a b s)
def execVfmulH2 (d a b : BitVec 6) (s : State) : Host.Outcome State Fault Refusal := done (vec2 latV6 (lane16 (fmul fp16 s.mode)) d a b s)
def execVfminH2 (d a b : BitVec 6) (s : State) : Host.Outcome State Fault Refusal := done (vec2 latV6 (lane16 (fmin fp16)) d a b s)
def execVfmaxH2 (d a b : BitVec 6) (s : State) : Host.Outcome State Fault Refusal := done (vec2 latV6 (lane16 (fmax fp16)) d a b s)
def execVfabsH2 (d a : BitVec 6) (s : State) : Host.Outcome State Fault Refusal := done (vec1 latV6 (fun x => lane16 (fabs fp16) x x) d a s)
def execVfnegH2 (d a : BitVec 6) (s : State) : Host.Outcome State Fault Refusal := done (vec1 latV6 (fun x => lane16 (fneg fp16) x x) d a s)
def execVfcsgnH2 (d a b : BitVec 6) (s : State) : Host.Outcome State Fault Refusal := done (vec2 latV6 (lane16 (fcsgn fp16)) d a b s)

def execVfaddBf2 (d a b : BitVec 6) (s : State) : Host.Outcome State Fault Refusal := done (vec2 latV6 (lane16 (fadd bf16 s.mode)) d a b s)
def execVfsubBf2 (d a b : BitVec 6) (s : State) : Host.Outcome State Fault Refusal := done (vec2 latV6 (lane16 (fsub bf16 s.mode)) d a b s)
def execVfmulBf2 (d a b : BitVec 6) (s : State) : Host.Outcome State Fault Refusal := done (vec2 latV6 (lane16 (fmul bf16 s.mode)) d a b s)
def execVfminBf2 (d a b : BitVec 6) (s : State) : Host.Outcome State Fault Refusal := done (vec2 latV6 (lane16 (fmin bf16)) d a b s)
def execVfmaxBf2 (d a b : BitVec 6) (s : State) : Host.Outcome State Fault Refusal := done (vec2 latV6 (lane16 (fmax bf16)) d a b s)
def execVfabsBf2 (d a : BitVec 6) (s : State) : Host.Outcome State Fault Refusal := done (vec1 latV6 (fun x => lane16 (fabs bf16) x x) d a s)
def execVfnegBf2 (d a : BitVec 6) (s : State) : Host.Outcome State Fault Refusal := done (vec1 latV6 (fun x => lane16 (fneg bf16) x x) d a s)
def execVfcsgnBf2 (d a b : BitVec 6) (s : State) : Host.Outcome State Fault Refusal := done (vec2 latV6 (lane16 (fcsgn bf16)) d a b s)

/-! ## Fused multiply-add: major 0x19 (R90) -/

/-- The format of fn[3:2], lane-wise or half-wise, accumulating into `vd`. -/
def fmaLane (f : BitVec 2) (m : RMode) (negP negC : Bool) (x y c : Word) : Word :=
  let on (g : Fmt) (h : Nat) : BitVec 16 := BitVec.ofNat 16 (ffma g m negP negC (half x h).toNat (half y h).toNat (half c h).toNat)
  match f.toNat with
  | 0 => BitVec.ofNat 32 (ffma fp32 m negP negC x.toNat y.toNat c.toNat)
  | 1 => ofHalves (on fp16 0) (on fp16 1)
  | _ => ofHalves (on bf16 0) (on bf16 1)

def execVffma (d a b : BitVec 6) (f : BitVec 2) (s : State) : Host.Outcome State Fault Refusal := done (vecAcc latV6 (fmaLane f s.mode false false) d a b s)
def execVffms (d a b : BitVec 6) (f : BitVec 2) (s : State) : Host.Outcome State Fault Refusal := done (vecAcc latV6 (fmaLane f s.mode false true) d a b s)
def execVfnma (d a b : BitVec 6) (f : BitVec 2) (s : State) : Host.Outcome State Fault Refusal := done (vecAcc latV6 (fmaLane f s.mode true false) d a b s)

/-! ## Compare: major 0x1E (R91) -/

def execVfcmpF32 (m : BitVec 3) (a b : BitVec 6) (c : BitVec 2) (s : State) : Host.Outcome State Fault Refusal :=
  done (vecCmp latV6 (fun x y => fcompare c.toNat (fp32.decode x.toNat) (fp32.decode y.toNat)) m a b s)

def execVfcmpPacked (d a b : BitVec 6) (f c : BitVec 2) (s : State) : Host.Outcome State Fault Refusal :=
  let g := if f = 1 then fp16 else bf16
  done (vec2 latV6 (halves2 fun x y => if fcompare c.toNat (g.decode x.toNat) (g.decode y.toNat) then 0xFFFF#16 else 0#16) d a b s)

/-! ## Conversions: major 0x1C (R92, R93), class X8 -/

/-- The width of a format code. -/
def cvtWidth (c : Nat) : Nat :=
  match c with
  | 0 | 5 | 6 => 32
  | 1 | 2 | 7 | 8 => 16
  | _ => 8

def cvtFmt (c : Nat) : Option Fmt :=
  match c with
  | 0 => some fp32
  | 1 => some fp16
  | 2 => some bf16
  | 3 => some e4m3
  | 4 => some e5m2
  | _ => none

/-- Signed integer codes are 5, 7 and 9; unsigned 6, 8 and 10. -/
def cvtSigned (c : Nat) : Bool := c % 2 == 1

/-- The exact value of an element of a format code. -/
def cvtValue (c x : Nat) : FVal :=
  match cvtFmt c with
  | some f => f.decode x
  | none =>
    let v : Int := if cvtSigned c then sextNat x (cvtWidth c) else (x : Int)
    .num ⟨v < 0, v.natAbs, 0⟩

/-- The range of an integer format code. -/
def cvtLo (c : Nat) : Int := if cvtSigned c then -(2 ^ (cvtWidth c - 1) : Nat) else 0
def cvtHi (c : Nat) : Int := if cvtSigned c then (2 ^ (cvtWidth c - 1) : Nat) - 1 else (2 ^ cvtWidth c : Nat) - 1

/-- rnd(x, dst, mode), with the random bits of `.sr` (R28, R29). -/
def cvtRound (c : Nat) (m : RMode) (sr : Option Nat) (v : FVal) : Nat :=
  match cvtFmt c, sr with
  | some f, some r => f.rndStoch r v
  | some f, none => f.rnd m v
  | none, some r => wrapNat (cvtWidth c) (rndIntStoch (cvtLo c) (cvtHi c) r v)
  | none, none => wrapNat (cvtWidth c) (rndInt m (cvtLo c) (cvtHi c) v)

/-- Element e of a lane, and a lane with element e replaced. -/
def getElt (w e : Nat) (x : Word) : Nat := (x.toNat >>> (w * e)) % 2 ^ w
def setElt (w e : Nat) (x : Word) (v : Nat) : Word :=
  if w = 32 then BitVec.ofNat 32 v else insertField x (BitVec.ofNat 32 v) (w * e) w

/-- Stochastic rounding is mode 101 (R27). -/
def State.isSr (s : State) : Bool := s.pfx.r = 5#3

def execVcvt (d a : BitVec 6) (x y : BitVec 4) (e : BitVec 2) (s : State) : Host.Outcome State Fault Refusal :=
  let (v, s) := s.vsrc 2 a
  let old := s.V d.toNat
  let lane (i : Fin 32) : Word :=
    let src := cvtValue y.toNat (if cvtWidth y.toNat = 32 then v[i].toNat else getElt (cvtWidth y.toNat) e.toNat v[i])
    let sr := if s.isSr then some (keyed16 (s.VD s.pfx.v.toNat i) (e.toNat * 32 + i.val)) else none
    setElt (cvtWidth x.toNat) e.toNat old[i] (cvtRound x.toNat s.mode sr src)
  done (s.putV latX8 d.toNat (Vector.ofFn lane))

end Sys2Proof.Machine
end

