-- ==== Sys2Proof/Machine/Cipher.lean ====
section
/-!
DEFINITION. The memory cipher (R295): AES-XTS-256 of a data unit of 64 bytes. The spec names the cipher and its tweak; its
definition is FIPS 197 and IEEE 1619, and the keys are free values (assumption 8).
-/
namespace Sys2Proof.Machine

/-! ## The field of 256 elements -/

def gfDouble (a : Byte) : Byte := (a <<< 1) ^^^ (if a.getLsbD 7 then 0x1B else 0)

def gfMulAux : Nat → Byte → Byte → Byte
  | 0, _, _ => 0
  | n + 1, a, b => (if b.getLsbD 0 then a else 0) ^^^ gfMulAux n (gfDouble a) (b >>> 1)

def gfMul (a b : Byte) : Byte := gfMulAux 8 a b

/-- The inverse, with 0 for 0: the power 254. -/
def gfInv (a : Byte) : Byte :=
  let a2 := gfMul a a
  let a4 := gfMul a2 a2
  let a8 := gfMul a4 a4
  let a16 := gfMul a8 a8
  let a32 := gfMul a16 a16
  let a64 := gfMul a32 a32
  let a128 := gfMul a64 a64
  gfMul a2 (gfMul a4 (gfMul a8 (gfMul a16 (gfMul a32 (gfMul a64 a128)))))

def aesSub (a : Byte) : Byte :=
  let x := gfInv a
  x ^^^ x.rotateLeft 1 ^^^ x.rotateLeft 2 ^^^ x.rotateLeft 3 ^^^ x.rotateLeft 4 ^^^ 0x63

def aesUnsub (a : Byte) : Byte := gfInv (a.rotateLeft 1 ^^^ a.rotateLeft 3 ^^^ a.rotateLeft 6 ^^^ 0x05)

/-! ## Blocks of 16 bytes, column by column -/

def byteAt (l : List Byte) (i : Nat) : Byte := l[i]?.getD 0

def xorBytes (a b : List Byte) : List Byte := List.zipWith (· ^^^ ·) a b

/-- Row r turned r places to the left, or back. -/
def aesShift (l : List Byte) : List Byte := (List.range 16).map fun i => byteAt l ((i + 4 * (i % 4)) % 16)
def aesUnshift (l : List Byte) : List Byte := (List.range 16).map fun i => byteAt l ((i + 12 * (i % 4)) % 16)

/-- Every column multiplied by the circulant of four coefficients. -/
def aesMixBy (m : List Byte) (l : List Byte) : List Byte :=
  (List.range 16).map fun i => (List.range 4).foldl (fun a j => a ^^^ gfMul (byteAt m ((j + 4 - i % 4) % 4)) (byteAt l (i / 4 * 4 + j))) 0

def aesMix : List Byte → List Byte := aesMixBy [2, 3, 1, 1]
def aesUnmix : List Byte → List Byte := aesMixBy [14, 11, 13, 9]

/-! ## The key schedule of a 256-bit key: 60 words -/

/-- The words of the schedule, the newest first. -/
def aesWords (key : List Byte) : Nat → List (List Byte)
  | 0 => (List.range 8).reverse.map fun i => (key.drop (4 * i)).take 4
  | n + 1 =>
    let ws := aesWords key n
    let i := n + 8
    let t := ws[0]?.getD []
    let t := if i % 8 = 0 then
        xorBytes ((t.drop 1 ++ t.take 1).map aesSub) [BitVec.ofNat 8 (2 ^ (i / 8 - 1)), 0, 0, 0]
      else if i % 8 = 4 then t.map aesSub else t
    xorBytes (ws[7]?.getD []) t :: ws

/-- The fifteen round keys. -/
def aesKeys (key : List Byte) : List (List Byte) :=
  let ws := (aesWords key 52).reverse
  (List.range 15).map fun r => ((ws.drop (4 * r)).take 4).flatten

/-! ## The cipher and its inverse -/

def aesRounds : List (List Byte) → List Byte → List Byte
  | [], l => l
  | [k], l => xorBytes (aesShift (l.map aesSub)) k
  | k :: r, l => aesRounds r (xorBytes (aesMix (aesShift (l.map aesSub))) k)

def aesEncrypt (key l : List Byte) : List Byte :=
  match aesKeys key with
  | [] => l
  | k :: r => aesRounds r (xorBytes l k)

/-- The rounds undone, the last round's key before. -/
def aesUnrounds : List (List Byte) → List Byte → List Byte
  | [], l => l
  | [k], l => xorBytes ((aesUnshift l).map aesUnsub) k
  | k :: r, l => aesUnrounds r (aesUnmix (xorBytes ((aesUnshift l).map aesUnsub) k))

def aesDecrypt (key l : List Byte) : List Byte :=
  match (aesKeys key).reverse with
  | [] => l
  | k :: r => aesUnrounds r (xorBytes l k)

/-! ## XTS: four blocks of a unit -/

/-- The tweak of the next block: doubled as a little-endian polynomial modulo x^128 + x^7 + x^2 + x + 1. -/
def xtsNext (t : List Byte) : List Byte :=
  (List.range 16).map fun i =>
    (byteAt t i <<< 1) ^^^ (if i = 0 then (if (byteAt t 15).getLsbD 7 then (0x87 : Byte) else 0) else (byteAt t (i - 1)) >>> 7)

/-- The blocks of a unit, each under its tweak. -/
def xtsBlocks (f : List Byte → List Byte) : Nat → List Byte → List Byte → List Byte
  | 0, _, _ => []
  | n + 1, t, bs => xorBytes (f (xorBytes (bs.take 16) t)) t ++ xtsBlocks f n (xtsNext t) (bs.drop 16)

/-- The two 256-bit keys of a key id: for the data, and for the tweak. -/
def dataKey (k : Nat) : List Byte := (List.range 32).map fun i => (Config.memKey k).extractLsb' (8 * i) 8
def tweakKey (k : Nat) : List Byte := (List.range 32).map fun i => (Config.memKey k).extractLsb' (256 + 8 * i) 8

/-- The tweak of a unit: its number, PA[51:6], encrypted. -/
def unitTweak (k unit : Nat) : List Byte := aesEncrypt (tweakKey k) ((List.range 16).map fun i => BitVec.ofNat 8 (unit / 256 ^ i))

/-- What memory holds of a unit written under a key, and what a key reads of what it holds; key 0 is plaintext. -/
def sealUnit (k unit : Nat) (bs : List Byte) : List Byte :=
  if k = 0 then bs else xtsBlocks (aesEncrypt (dataKey k)) 4 (unitTweak k unit) bs
def openUnit (k unit : Nat) (bs : List Byte) : List Byte :=
  if k = 0 then bs else xtsBlocks (aesDecrypt (dataKey k)) 4 (unitTweak k unit) bs

/-- What 64 bytes written under one key read as under another. -/
def otherKey (unit written reader : Nat) (bs : List Byte) : List Byte := openUnit reader unit (sealUnit written unit bs)

end Sys2Proof.Machine
end

