-- ==== Sys2Proof/Machine/Places.lean ====
section
/-!
DEFINITION. Where an address leads: the logical map of cores and clusters (R341, R342), the three spaces (R106),
translation (R295, R296), and reading and writing a place, with poison (R331), full-empty bits (R225), the key a line
was written under (R295), the cellar's lines (R235) and granules frozen by a checkpoint (R347).
-/
namespace Sys2Proof.Machine

/-- Why an instruction does not take its ordinary effect. -/
inductive Stop where
  | trap (t : Trap)
  | wait (w : Wait)
  deriving DecidableEq, Repr

abbrev Res (α : Type) := Except Stop α

/-- A check: the trap unless the condition holds. -/
def need (ok : Bool) (t : Trap) : Res Unit := if ok then .ok () else .error (.trap t)

/-- A wait unless the condition holds (R210). -/
def waitFor (ok : Bool) (w : Wait) : Res Unit := if ok then .ok () else .error (.wait w)

/-! ## The logical map (R341, R342) -/

/-- The die of index a: the active dies in increasing number, skipping the spare. -/
def Fabric.dieOf (f : Fabric) (a : Nat) : Nat := if a < f.spare then a else a + 1

/-- The enabled cores of physical cluster k of a die, in increasing order. -/
def Fabric.enabled (f : Fabric) (die k : Nat) : List Nat :=
  [4 * k, 4 * k + 1, 4 * k + 2, 4 * k + 3].filter fun c => !((f.harvest[die]?.getD 0).getLsbD c)

/-- `csize` of a logical cluster. -/
def Fabric.csize (f : Fabric) (c : Nat) : Nat := (f.enabled (f.dieOf (c / 9)) (c % 9)).length

/-- The first logical core of a logical cluster. -/
def Fabric.clusterBase (f : Fabric) (c : Nat) : Nat :=
  32 * (c / 9) + (List.range (c % 9)).foldl (fun a k => a + f.csize (9 * (c / 9) + k)) 0

/-- The logical cluster of a logical core. -/
def Fabric.clusterOf (f : Fabric) (core : Nat) : Nat :=
  let a := core / 32
  ((List.range 9).map fun k => 9 * a + k).foldl (fun r c => if f.clusterBase c ≤ core then c else r) (9 * a)

/-- The logical-core table that bring-up builds (R342): physical core die × 36 + core. -/
def Fabric.buildMap (f : Fabric) : List Nat :=
  (List.range 20).flatMap fun a =>
    ((List.range 36).filter fun c => !((f.harvest[f.dieOf a]?.getD 0).getLsbD c)).map fun c => f.dieOf a * 36 + c

/-! ## Physical memory -/

def State.keyOf (s : State) (line : Nat) : Nat := ((s.lineKey.find? fun p => p.1 = line).map (·.2)).getD 0

/-- Bytes as a reader with a key sees them (R295). -/
def State.readMem (s : State) (key pa n : Nat) : List Byte :=
  (List.range n).map fun i =>
    let u := (pa + i) / 64
    if s.keyOf u = key then cellGet s.mem (pa + i)
    else byteAt (otherKey u (s.keyOf u) key (cellsRead s.mem (64 * u) 64)) ((pa + i) % 64)

/-- A line taken over by a key: its other bytes are what that key reads in it (R295). -/
def State.rekey (s : State) (key line : Nat) : State :=
  if s.keyOf line = key then s
  else
    { s with
      mem := cellsWrite s.mem (64 * line) (s.readMem key (64 * line) 64)
      lineKey := (if key = 0 then [] else [(line, key)]) ++ s.lineKey.filter fun p => p.1 != line }

/-- The frozen granule that holds a physical address, still to be read by the drain (R347). -/
def State.frozen (s : State) (pa : Nat) : Option Granule :=
  match s.ck with
  | none => none
  | some c => c.grans.find? fun g => g.pages.contains (pa / 4096) && g.st = 0 && c.phase = 2

/-- One page copied, byte by byte, with the key and the poison of each of its lines (R295, R331, R347). -/
def State.copyPage (s : State) (src dst : Nat) : State :=
  let cells := s.mem.filter fun x => x.1 / 4096 = src
  let keys := s.lineKey.filter fun x => x.1 / 64 = src
  { s with
    poison := ((s.poison.filter fun l => l / 64 = src).map fun l => 64 * dst + l % 64) ++ s.poison.filter fun l => l / 64 != dst
    mem := cells.foldl (fun m x => cellSet m (4096 * dst + x.1 % 4096) x.2) (cellsClear s.mem (4096 * dst) 4096)
    lineKey := keys.map (fun x => (64 * dst + x.1 % 64, x.2)) ++ s.lineKey.filter fun x => x.1 / 64 != dst }

/-- Granules of the reserve in use (R346, R347). -/
def Checkpoint.used (c : Checkpoint) : List Nat := List.range c.cellar ++ c.grans.filterMap (·.copy)

/-- The hub's copy of a granule into the lowest free granule of the reserve before a write, while there is one (R347). -/
def State.copyGranule (s : State) (pa : Nat) : State :=
  match s.frozen pa, s.ck with
  | some g, some c =>
    match (List.range c.reserve).find? fun i => !c.used.contains i with
    | none => s
    | some n =>
      let s := (g.pages.zip (List.range 16)).foldl (fun s x => s.copyPage x.1 (c.base / 4096 + 16 * n + x.2)) s
      { s with ck := some { c with grans := c.grans.map fun x => if x.ordinal = g.ordinal then { x with st := 1, copy := some n } else x } }
  | _, _ => s

/-- The frozen granules, still to be read by the drain, that hold one of some pages (R347). -/
def State.frozenAt (s : State) (pages : List Nat) : List Granule :=
  match s.ck with
  | none => []
  | some c => if c.phase = 2 then c.grans.filter fun g => g.st = 0 && g.pages.any pages.contains else []

/-- The reserve has a granule for each of the frozen ones that a write to some pages reaches (R347). -/
def State.reserveRoom (s : State) (pages : List Nat) : Bool :=
  match s.ck with
  | none => true
  | some c => (s.frozenAt pages).isEmpty || decide (c.used.length + (s.frozenAt pages).length ≤ c.reserve)

/-- The reserve is exhausted and the write must wait (R347). -/
def State.writeBlocked (s : State) (pa : Nat) : Bool := !s.reserveRoom [pa / 4096]

/-- The pages that n bytes of memory lie in. -/
def pagesOf (pa n : Nat) : List Nat := (List.range ((pa + n - 1) / 4096 + 1 - pa / 4096)).map fun i => pa / 4096 + i

/-- Every frozen granule that holds a page is copied. -/
def State.copyPageGranules (s : State) (p : Nat) : State := (s.frozenAt [p]).foldl (fun s _ => s.copyGranule (4096 * p)) s

/-- The frozen granules that a write of n bytes reaches are copied (R347). -/
def State.copyGranules (s : State) (pa n : Nat) : State := (pagesOf pa n).foldl (fun s p => s.copyPageGranules p) s

/-- Bytes written under a key. The spec gives no outcome for an address beyond the 640 GB of R1: it is ordinary memory here
(assumption 75). -/
def State.writeMem (s : State) (key pa : Nat) (bs : List Byte) : State :=
  if bs.isEmpty then s
  else
    let s := s.copyGranules pa bs.length
    let s := (List.range ((pa + bs.length - 1) / 64 + 1 - pa / 64)).foldl (fun s i => s.rekey key (pa / 64 + i)) s
    { s with mem := cellsWrite s.mem pa bs }

/-- A little-endian value of n bytes, read and written by the device itself under key 0 (R3, R5). -/
def State.rdN (s : State) (pa n : Nat) : Nat := leNat (s.readMem 0 pa n)
def State.wrN (s : State) (pa n v : Nat) : State := s.writeMem 0 pa (leBytes n v)

/-! ## Translation (R295, R296) -/

/-- What an access needs of its leaf, and how its fault is recorded (R297). -/
structure Access where
  read : Bool
  write : Bool
  fetch : Bool
  user : Bool
  cask : Bool
  agent : Nat
  deriving DecidableEq, Repr

def Access.bits (a : Access) : Nat := a.read.toNat + 2 * a.write.toNat + 4 * a.fetch.toNat

/-- A walk's end: the physical address, the level of the leaf (0: 4 KiB, 1: 2 MiB, 2: 1 GiB) and the leaf. -/
inductive Walk where
  | ok (pa lvl leaf : Nat)
  | miss
  | malformed
  deriving DecidableEq, Repr

/-- The walk from a table at a level: `l + 1` is the level of the table. Tables are read under key 0 (assumption 48). -/
def walkFrom (s : State) (va : Nat) : Nat → Nat → Walk
  | 0, _ => .malformed
  | l + 1, table =>
    let e := s.rdN (table + 8 * ((va >>> (12 + 9 * l)) % (if l = 3 then 2 ^ 18 else 512))) 8
    let bit (i : Nat) : Bool := e.testBit i
    let pa := (e >>> 12) % 2 ^ 40 * 4096
    if !bit 0 then .miss
    else if bit 63 || bit 11 || bit 10 || bit 9 || bit 4 || (bit 8 && l != 0) then .malformed
    else if bit 5 then
      if l = 3 || pa % 2 ^ (12 + 9 * l) != 0 then .malformed
      else .ok (pa + va % 2 ^ (12 + 9 * l)) l e
    else if l = 0 then .malformed
    else walkFrom s va l pa

/-- The checks of R296 on a leaf: `none` passes, else the kind of R297. -/
def Access.leafFault (a : Access) (e : Nat) : Option Nat :=
  if (a.read && !e.testBit 1) || (a.write && !e.testBit 2) || (a.fetch && !e.testBit 3) || (a.user && !e.testBit 7) then some 1
  else if e.testBit 6 != a.cask then some 2
  else none

/-- A cached translation's page holds an address; one entry of a 64 KiB group may serve the whole group (R295). -/
def TlbEntry.covers (e : TlbEntry) (root va : Nat) : Bool :=
  e.root = root && (va / 2 ^ (12 + 9 * e.lvl) = e.va / 2 ^ (12 + 9 * e.lvl) ||
    (e.lvl = 0 && e.leaf.testBit 8 && decide (va / 65536 = e.va / 65536)))

/-- The physical address of an address by a cached translation. -/
def TlbEntry.pa (e : TlbEntry) (va : Nat) : Nat :=
  let pa := (e.leaf >>> 12) % 2 ^ 40 * 4096
  if va / 2 ^ (12 + 9 * e.lvl) = e.va / 2 ^ (12 + 9 * e.lvl) then pa + va % 2 ^ (12 + 9 * e.lvl) else pa / 65536 * 65536 + va % 65536

/-- The tables walked, or a cached translation used: which one is open (R202, assumption 25). -/
def State.walk (s : State) (root va : Nat) : Walk :=
  match s.tlb.filter fun e => e.covers root va with
  | [] => walkFrom s va 4 root
  | l => match l[Config.cachePick s.tick va % (l.length + 1)]? with
    | some e => .ok (e.pa va) e.lvl e.leaf
    | none => walkFrom s va 4 root

/-- The translation of a page is cached, if its walk finds one: an entry with V = 0 is not cached (R296). -/
def State.cachePage (s : State) (root va : Nat) : State :=
  match walkFrom s va 4 root with
  | .ok _ l e => { s with tlb := ⟨root, va, l, e⟩ :: s.tlb }
  | _ => s

/-- What `tlbinv` of a kind drops (R202). -/
def State.dropCached (s : State) (kind : BitVec 3) (root : Nat) (a : DWord) : State :=
  { s with tlb := s.tlb.filter fun e =>
      !(if kind = 0 then e.covers root a.toNat
        else if kind = 1 then e.root = root
        else if kind = 2 then (e.leaf >>> 52) % 2048 = a.toNat % 2048
        else true) }

/-- A memory-space address translated and checked. -/
def translate (s : State) (root : Nat) (a : Access) (va : Nat) : Res (Nat × Nat) :=
  match s.walk root va with
  | .miss => .error (.trap (.miss (BitVec.ofNat 64 va) a.agent a.bits))
  | .malformed => .error (.trap (.protect (BitVec.ofNat 64 va) a.agent 3 a.bits))
  | .ok pa _ e =>
    match a.leafFault e with
    | some k => .error (.trap (.protect (BitVec.ofNat 64 va) a.agent k a.bits))
    | none => .ok (pa, (e >>> 52) % 2048)

/-! ## The three spaces (R106) -/

def scratchBase : Nat := 0xFFFFF00000000000
def cellarBase : Nat := 0xFFFFE00000000000

/-- An access of a program at a level (R296, R351). -/
def progAccess (l : Level) (read write : Bool) (agent : Nat) : Access :=
  ⟨read, write, false, l != .firmware, false, agent⟩

/-- The context slot that a member core holds for a context, or a wait when its block is saved (R294). -/
def remoteSlot (s : State) (va : DWord) (core : Nat) : Res Nat :=
  match s.allBlks.find? fun b => b.core = core && b.ctx = s.ctx.id && b.life = .resident with
  | some b => .ok b.slot
  | none =>
    if s.saved.any fun v => v.blk.core = core && v.blk.ctx = s.ctx.id then .error (.wait .retry)
    else .error (.trap (.address va))

/-- An address of the scratchpad window, and of the cellar window (R106). -/
def inScratchWindow (va : DWord) : Bool := decide (scratchBase ≤ va.toNat) && decide (va.toNat < scratchBase + 2 ^ 32)
def inCellarWindow (va : DWord) : Bool := decide (cellarBase ≤ va.toNat) && decide (va.toNat < cellarBase + 2 ^ 26)

/-- The place of an access of `sz` bytes by the issuing warp, which must be aligned (R106). -/
def place (s : State) (a : Access) (va : DWord) (sz : Nat) : Res Place := do
  let v := va.toNat
  need (v % sz == 0) (.address va)
  if v < 2 ^ 57 then
    let (pa, key) ← translate s s.ctx.root a v
    .ok (.mem pa key)
  else if scratchBase ≤ v ∧ v < scratchBase + 2 ^ 32 then
    let x := v - scratchBase
    let sel := x / 2 ^ 24
    let off := x % 2 ^ 21
    need (x / 2 ^ 23 % 2 == 0) (.address va)
    if sel = 0 then
      need (off + sz ≤ s.blk.part) (.address va)
      .ok (.scratch s.blk.core s.blk.slot off)
    else
      let c := sel - 1
      let m := x / 2 ^ 21 % 4
      need (c ≤ 179 && m < s.fab.csize c) (.address va)
      let core := s.fab.clusterBase c + m
      let slot ← remoteSlot s va core
      need (off + sz ≤ ((s.getBlk core slot).map (·.part)).getD 0) (.address va)
      .ok (.scratch core slot off)
  else if cellarBase ≤ v ∧ v < cellarBase + 2 ^ 26 then
    let off := v - cellarBase
    need (s.ctx.cbase ≤ off && off + sz ≤ s.ctx.cbase + s.ctx.csize) (.address va)
    .ok (.cellar off)
  else .error (.trap (.address va))

/-- An address breaks none of the rules of R106, whether its page is present or not. -/
def addressOk (s : State) (va : DWord) (sz : Nat) : Bool :=
  match place s ⟨false, false, false, false, false, 0⟩ va sz with
  | .error (.trap (.address _)) => false
  | _ => true

/-! ## Reading and writing a place -/

def State.readPlace (s : State) (p : Place) (n : Nat) : List Byte :=
  match p with
  | .mem pa key => s.readMem key pa n
  | .scratch c x off => cellsRead (((s.getBlk c x).map (·.scratch)).getD []) off n
  | .cellar off => cellsRead s.cellar off n

/-! ### The cellar's lines (R234, R235) -/

def State.cline (s : State) (n : Nat) : CLine :=
  (s.clines.find? fun l => l.n = n).getD
    { n := n, st := 0, kerr := false, stray := false, count := 0, next := 0, sum := 0, arrived := 0, aband := 0,
      queue := [], owners := [], poison := false }

def State.setCline (s : State) (l : CLine) : State :=
  let rest := s.clines.filter fun x => x.n != l.n
  { s with clines := if l.st = 0 && !l.poison then rest else rest ++ [l] }

/-- The control word of a line that is not plain (R234). -/
def CLine.ctl (l : CLine) : Nat :=
  l.count % 2 ^ 24 + l.stray.toNat * 2 ^ 26 + l.kerr.toNat * 2 ^ 27 + l.st * 2 ^ 28 + (if l.st = 4 then 0 else 2 ^ 31)

/-- The fields of a cell written into its line, the reserved ones zero (R234): of one that has completed (`live` false) only the
control word, since its other words may have been stored to, and so of one that found no queue. -/
def State.syncCell (s : State) (l : CLine) (live : Bool) : State :=
  let bs := leBytes 4 l.ctl ++ (if l.st = 4 || !live then []
    else leBytes 4 l.next ++ leBytes 4 l.sum.toNat ++ leBytes 4 l.arrived ++ leBytes 4 l.aband ++ leBytes 44 0)
  { (s.setCline l) with cellar := cellsWrite s.cellar (64 * l.n) bs }

/-- The open cells of a bank: line n is held by bank n mod 2048 (R232, R235). -/
def State.openCells (s : State) (bank : Nat) : Nat := (s.clines.filter fun l => l.n % 2048 = bank && l.st = 1).length

/-- A 32-bit plain store to CTL with ARM = 1 of a line that is not open (R235). -/
def State.armCell (s : State) (n word : Nat) : State :=
  let l := s.cline n
  let base : CLine := { l with kerr := false, stray := false, count := word % 2 ^ 24, next := 0, sum := 0, arrived := 0, aband := 0, queue := [], owners := [] }
  if word % 2 ^ 24 = 0 then s.syncCell { base with st := 2 } true
  else if s.openCells (n % 2048) ≥ 8 then s.syncCell { base with st := 4 } true
  else s.syncCell { base with st := 1 } true

/-- One write operation on one line of the cellar: `plain32` marks a 32-bit plain store (R235). -/
def State.writeLine (s : State) (off : Nat) (bs : List Byte) (plain32 : Bool) : State :=
  let n := off / 64
  let l := s.cline n
  let isCtl := plain32 && off % 64 == 0
  if l.st = 1 then s
  else if isCtl && leNat bs ≥ 2 ^ 31 then s.armCell n (leNat bs)
  else if l.st = 0 || (plain32 && !isCtl) then { s with cellar := cellsWrite s.cellar off bs }
  else { (s.setCline { l with st := 0 }) with cellar := cellsWrite s.cellar off bs }

def State.writePlace (s : State) (p : Place) (bs : List Byte) (plain32 : Bool) : State :=
  match p with
  | .mem pa key => s.writeMem key pa bs
  | .scratch c x off =>
    match s.getBlk c x with
    | some b => s.setBlk { b with scratch := cellsWrite b.scratch off bs }
    | none => s
  | .cellar off => s.writeLine off bs plain32

/-! ## Poison (R331, R233) -/

/-- The 64-byte units that bytes of a place lie in are poisoned. -/
def State.poisoned (s : State) (p : Place) (n : Nat) : Bool :=
  match p with
  | .mem pa _ => s.poison.any fun l => decide (pa / 64 ≤ l) && decide (l ≤ (pa + n - 1) / 64)
  | .scratch c x off => (((s.getBlk c x).map (·.spoison)).getD []).any fun l => decide (off / 64 ≤ l) && decide (l ≤ (off + n - 1) / 64)
  | .cellar off => (s.cline (off / 64)).poison

/-- The unit of a place, with its offset inside the unit. -/
def Place.unit : Place → Place × Nat
  | .mem pa _ => (.mem (pa / 64) 0, pa % 64)
  | .scratch c x off => (.scratch c x (off / 64), off % 64)
  | .cellar off => (.cellar (off / 64), off % 64)

/-- A unit's poison set or cleared. -/
def State.setPoison (s : State) (u : Place) (on : Bool) : State :=
  match u with
  | .mem l _ => { s with poison := (if on then [l] else []) ++ s.poison.filter (· != l) }
  | .scratch c x l =>
    match s.getBlk c x with
    | some b => s.setBlk { b with spoison := (if on then [l] else []) ++ b.spoison.filter (· != l) }
    | none => s
  | .cellar l => s.setCline { s.cline l with poison := on }

/-- The bytes of a unit that one store or copy writes: the sum over its distinct pieces. -/
def coverage (u : Place) (ps : List (Place × Nat)) : Nat :=
  ((ps.filter fun p => p.1.unit.1 = u).map fun p => (p.1.unit.2, p.2)).eraseDups.foldl (fun a p => a + p.2) 0

/-- One store instruction, or one copy, that writes all 64 bytes of a unit clears its poison (R331). -/
def State.clearCovered (s : State) (ps : List (Place × Nat)) : State :=
  if s.poison.isEmpty && s.clines.all (fun l => !l.poison) && s.allBlks.all (fun b => b.spoison.isEmpty) then s
  else ((ps.map fun p => p.1.unit.1).eraseDups).foldl (fun s u => if coverage u ps ≥ 64 then s.setPoison u false else s) s

/-! ## Full-empty bits (R112, R225) -/

def insertNat (n : Nat) : List Nat → List Nat
  | [] => [n]
  | k :: r => if n < k then n :: k :: r else if n = k then k :: r else k :: insertNat n r

/-- The granule of a scratchpad place. -/
def Place.granule : Place → Option (Nat × Nat × Nat)
  | .scratch c x off => some (c, x, off / 16)
  | _ => none

def State.isFull (s : State) (g : Nat × Nat × Nat) : Bool := (((s.getBlk g.1 g.2.1).map (·.full)).getD []).contains g.2.2

def State.setFull (s : State) (g : Nat × Nat × Nat) (on : Bool) : State :=
  match s.getBlk g.1 g.2.1 with
  | some b => s.setBlk { b with full := if on then insertNat g.2.2 b.full else b.full.filter (· != g.2.2) }
  | none => s

/-! ## Time (R6, R20) -/

/-- Module time in ns. -/
def State.ns (s : State) : Nat := s.time19 / 19

/-- Module time in µs. -/
def State.us (s : State) : Nat := s.ns / 1000

end Sys2Proof.Machine
end

