-- ==== Sys2Proof/Machine/Hub.lean ====
section
/-!
DEFINITION. The hub tables: the error ring and the fault queue's records (R297, R333), names and the resolution of sends
(R174 to R176, R190, R273 to R282), and the wait table (R178 to R181, R283).
-/
namespace Sys2Proof.Machine

/-! ## Status codes (R152) -/

def stOk : Word := 0
def stBusy : Word := 1
def stDead : Word := 2
def stStale : Word := 3
def stBarred : Word := 4
def stOver : Word := 5
def stWoken : Word := 6
def stNoteq : Word := 7
def stFull : Word := 8
def stTrunc : Word := 9
def stNopost : Word := 10
def stLate : Word := 11
def stOverflow : Word := 12
def stIgnored : Word := 13
def stNone : Word := 14
def stAbsent : Word := 15

/-! ## The error ring (R333) -/

/-- An integrity event appended; a full ring loses its oldest record. -/
def State.logError (s : State) (kind wslot core ctx tile col : Nat) : State :=
  if s.fu.errLen = 0 then s
  else
    let a := s.fu.errBase + 16 * (s.fu.errNext % s.fu.errLen)
    let bs := leBytes 1 kind ++ leBytes 1 wslot ++ leBytes 2 core ++ leBytes 2 ctx ++ leBytes 2 tile ++ leBytes 1 col ++
      leBytes 3 0 ++ leBytes 4 (s.us % 2 ^ 32)
    { (s.writeMem 0 a bs) with fu := { s.fu with errNext := s.fu.errNext + 1 } }

/-! ## The driver's fault queue (R297) -/

/-- A new record, which waits to be written by FAULT_QUEUE_APPEND; its token is the model's operation number. -/
def State.raiseFault (s : State) (ctx core wslot agent kind access : Nat) (va : DWord) (who : Option Agent) : State :=
  { s with
    nextId := s.nextId + 1
    fu := { s.fu with recs := s.fu.recs ++ [⟨s.nextId, ctx, core, wslot, agent, kind, access, va, who, false⟩] } }

/-- The bytes of a fault-queue record. -/
def FRec.bytes (r : FRec) : List Byte :=
  leBytes 2 r.ctx ++ leBytes 2 r.core ++ leBytes 1 r.wslot ++ leBytes 1 r.agent ++ leBytes 1 r.kind ++ leBytes 1 r.access ++
    leBytes 8 r.va.toNat ++ leBytes 8 r.token ++ leBytes 8 0

/-! ## Results delivered late (R48) -/

/-- The results with this number are written now: both halves of a pair at once (R13). -/
def Warp.deliver (w : Warp) (id : Nat) : Warp :=
  let w' := (w.pend.filter fun p => p.id = id).foldl (fun a p => a.writeDest p.dest p.lanes p.val) w
  { w' with pend := w.pend.filter fun p => p.id != id }

/-- The value of a result in flight is known: the low half, then the high half of a pair. -/
def Warp.fillPend (w : Warp) (id : Nat) (lo hi : VReg) : Warp :=
  let first := w.pend.findIdx fun p => p.id = id
  { w with pend := w.pend.mapIdx fun i p => if p.id = id then { p with val := if i = first then lo else hi } else p }

/-- A warp wherever it is: resident, or in a saved block. -/
def State.onWarp (s : State) (k : WKey) (f : Warp → Warp) : State :=
  match s.getWarp k with
  | some w => s.setWarp (f w)
  | none => s

def State.deliver (s : State) (k : WKey) (id : Nat) (v : Word) : State := s.onWarp k fun w => (w.fillPend id (splat v) (splat v)).deliver id

/-! ## Names (R273 to R277) -/

def nameDomain (n : DWord) : Half := n.extractLsb' 48 16
def nameId (n : DWord) : Nat := (n.extractLsb' 0 48).toNat

/-- The directory record of a domain: table base, count, home module, valid (R274). -/
def State.dirRec (s : State) (d : Half) : Nat × Nat × Nat × Bool :=
  let a := s.directory + 16 * d.toNat
  (s.rdN a 8, s.rdN (a + 8) 4, s.rdN (a + 12) 2, s.rdN (a + 14) 2 % 2 = 1)

/-- The memory address of an entry, when the name has one on this module. -/
def State.nameAddr (s : State) (n : DWord) : Option Nat :=
  let (base, count, home, valid) := s.dirRec (nameDomain n)
  if valid && decide (nameId n < count) && home = s.fab.homeModule then some (base + 64 * nameId n) else none

/-- A name that has an entry on another module (R274). -/
def State.remote (s : State) (n : DWord) : Bool :=
  let (_, count, home, valid) := s.dirRec (nameDomain n)
  valid && decide (nameId n < count) && home != s.fab.homeModule

/-- The home module of a name whose domain's record is valid. -/
def State.nameHome (s : State) (n : DWord) : Nat :=
  let (_, _, home, valid) := s.dirRec (nameDomain n)
  if valid then home else s.fab.homeModule

/-- Traffic to a module can go out over one of the links, or needs no link: to this module, or to one that fencing has cut off, as it
cuts off every other one when this module is fenced (R338, R340). -/
def State.reaches (s : State) (module : Nat) : Bool :=
  module = s.fab.homeModule || s.fab.links.any (·.up) || s.fab.revoked.contains module || s.fab.revoked.contains s.fab.homeModule

/-- Traffic for a remote name can go out (R338, R340). -/
def State.routed (s : State) (n : DWord) : Bool := s.reaches (s.nameHome n)

/-- What another module answers: ABSENT once it, or this module, is fenced (R279, R340), else its own answer (assumption 12). -/
def State.remoteAnswer (s : State) (n : DWord) : Word :=
  if s.fab.revoked.contains (s.nameHome n) || s.fab.revoked.contains s.fab.homeModule then stAbsent else Config.remoteStatus s.tick

/-- The entry that memory holds (R275). -/
def State.readEntry (s : State) (n : DWord) (a : Nat) : NameEntry :=
  let ctl := s.rdN a 4
  { name := n, gen := BitVec.ofNat 16 (ctl >>> 16), opn := ctl.testBit 9, nacc := (ctl >>> 6) % 8, wake := ctl.testBit 5,
    st := ctl % 8, count := s.rdN (a + 4) 4, loc := BitVec.ofNat 64 (s.rdN (a + 8) 8),
    accept := Vector.ofFn fun i => BitVec.ofNat 16 (s.rdN (a + 16 + 2 * i.val) 2),
    dep := Vector.ofFn fun i => BitVec.ofNat 64 (s.rdN (a + 24 + 8 * i.val) 8), posts := [], receipts := [], ctx := 0, transitAt := 0 }

/-- The entry's bytes in memory (R275). -/
def NameEntry.bytes (e : NameEntry) : List Byte :=
  leBytes 4 (e.gen.toNat * 65536 + e.opn.toNat * 512 + e.nacc * 64 + e.wake.toNat * 32 + e.st) ++ leBytes 4 e.count ++
    leBytes 8 e.loc.toNat ++ (e.accept.toList.flatMap fun d => leBytes 2 d.toNat) ++
    (e.dep.toList.flatMap fun d => leBytes 8 d.toNat) ++ leBytes 8 0

/-- The current entry of a name: the cached copy, or memory's (R275); VACANT entries included. -/
def State.entryRaw (s : State) (n : DWord) : Option NameEntry :=
  match s.nameAddr n with
  | none => none
  | some a => some ((s.names.find? fun e => e.name = n).getD (s.readEntry n a))

/-- The entry of a name; VACANT and the reserved state count as none (R275). -/
def State.entry (s : State) (n : DWord) : Option NameEntry :=
  (s.entryRaw n).filter fun e => e.st != 0 && e.st != 7

def State.setEntry (s : State) (e : NameEntry) : State :=
  { s with names := e :: s.names.filter fun x => x.name != e.name }

def State.onEntry (s : State) (n : DWord) (f : NameEntry → NameEntry) : State :=
  match s.entry n with
  | some e => s.setEntry (f e)
  | none => s

/-- An entry is created over VACANT or DEAD: RUNNING (1) or HOST (6), with the resets of R275 (R277). -/
def State.createEntry (s : State) (n : DWord) (st : Nat) (loc : DWord) (ctx : Nat) : State :=
  match s.entryRaw n with
  | none => s
  | some e =>
    if e.st != 0 && e.st != 5 && e.st != 7 then s
    else
      s.setEntry { name := n, gen := e.gen + 1, opn := false, nacc := 0, wake := false, st := st, count := 0, loc := loc,
                   accept := Vector.replicate 4 0, dep := Vector.replicate 4 0, posts := [], receipts := [], ctx := ctx, transitAt := 0 }

/-- LOC of a resident warp (R275). -/
def warpLoc (core slot wslot : Nat) : DWord := BitVec.ofNat 64 (core + slot * 2 ^ 10 + wslot * 2 ^ 12)

def State.setNameState (s : State) (n : DWord) (st : Nat) (loc : DWord) : State :=
  s.onEntry n fun e => { e with st := st, loc := loc }

/-- RUNNING and PARKED alternate while the owner waits (R277). -/
def State.parkName (s : State) (n : DWord) (parked : Bool) : State :=
  s.onEntry n fun e => if e.st = 1 || e.st = 2 then { e with st := if parked then 2 else 1 } else e

def State.mapWarps (s : State) (f : Warp → Warp) : State :=
  { s with warp := f s.warp, warps := s.warps.map f, saved := s.saved.map fun v => { v with warps := v.warps.map f } }

/-- The splits of a warp that wait for the end of a name at a generation wait no longer. -/
def Warp.endJoins (n : DWord) (gen : Half) (w : Warp) : Warp :=
  { w with splits := w.splits.map fun p => if p.wait = some (.njoin n gen) then { p with wait := some .joined } else p }

/-- An entry goes DEAD, LOC 0, and pending joins on it end (R277). -/
def State.endName (s : State) (e : NameEntry) : State :=
  (s.setEntry { e with st := 5, loc := 0 }).mapWarps (Warp.endJoins e.name e.gen)

/-- The owning warp is gone; an entry that no warp owns stays as it is (R277). -/
def State.killName (s : State) (n : DWord) : State :=
  match s.entry n with
  | some e => if 1 ≤ e.st ∧ e.st ≤ 4 then s.endName e else s
  | none => s

/-! ## Host wake words (R282) -/

/-- One 64-bit coherent write. Host memory is addressed as the device's (assumption 13). -/
def State.wakeWord (s : State) (addr : Nat) (low mid kind : Nat) : State :=
  s.wrN addr 8 (low % 2 ^ 32 + mid % 65536 * 2 ^ 32 + kind * 2 ^ 48)

/-- A HOST entry's wake word after a send. -/
def State.presentHost (s : State) (n : DWord) : State :=
  match s.entry n with
  | some e => if e.st = 6 then s.wakeWord e.loc.toNat e.count e.gen.toNat 1 else s
  | none => s

/-! ## The resolution of sends (R174, R175, R190) -/

/-- The target accepts the sender's domain (R174, R176). -/
def NameEntry.accepts (e : NameEntry) (dom : Half) : Bool :=
  nameDomain e.name = dom || e.opn || (e.accept.toList.take e.nacc).contains dom

def SendOp.isMsg : SendOp → Bool
  | .msg .. => true
  | .place .. => true
  | _ => false

/-- Rows 1 to 5 of the table of R174, with the message's checks of R190; `none` is OK. -/
def sendRefusal (e : NameEntry) (op : SendOp) (anyGen : Bool) (gen dom : Half) : Option Word :=
  if !e.accepts dom then some stBarred
  else if (match op with | .sig _ => true | .wake => true | _ => false) && !anyGen && e.gen != gen then some stStale
  else if e.st = 5 then some stDead
  else
    match op with
    | .sig n => if e.count + n > 2 ^ 32 - 1 then some stOver else none
    | .wake => none
    | .dep _ _ sig => if sig && e.count = 2 ^ 32 - 1 then some stOver else none
    | .msg .. =>
      if e.posts.isEmpty then some stNopost
      else if e.receipts.length ≥ 16 then some stFull
      else if e.count = 2 ^ 32 - 1 then some stOver
      else none
    | .place .. => none

/-- A write by a hub agent, checked as a user-level store (R298). -/
def hubWrite : Access := { read := false, write := true, fetch := false, user := true, cask := false, agent := 5 }

/-- Bytes stored in a context's memory by a hub agent, page by page, as user-level writes (R298); they wait while the reserve of a
checkpoint is exhausted (R347). -/
def storeInto (s : State) (root : Nat) : Nat → Nat → List Byte → Res State
  | 0, _, _ => .ok s
  | _ + 1, _, [] => .ok s
  | fuel + 1, va, bs => do
    let n := 4096 - va % 4096
    let (pa, key) ← translate s root hubWrite va
    waitFor (!s.writeBlocked pa) .retry
    storeInto (s.writeMem key pa (bs.take n)) root fuel (va + n) (bs.drop n)

def storeBytes (s : State) (root : Nat) (fuel va : Nat) (bs : List Byte) : Res State := storeInto s root fuel va bs

/-- Bytes read from a context's memory by a hub agent. -/
def loadBytes (s : State) (root : Nat) (va : Nat) : Nat → Res (List Byte)
  | 0 => .ok []
  | n + 1 => do
    let (pa, key) ← translate s root { hubWrite with read := true, write := false } va
    let r ← loadBytes s root (va + 1) n
    .ok (s.readMem key pa 1 ++ r)

/-- Bytes stored by the hub where the page permits it; nothing where it does not (assumption 14). `none` while the write must wait
(R347). -/
def State.hubStore (s : State) (ctx va : Nat) (bs : List Byte) : Option State :=
  match storeBytes s (((s.getCtx ctx).map (·.root)).getD 0) 4 va bs with
  | .ok s' => some s'
  | .error (.wait _) => none
  | .error _ => some s

/-- Bytes loaded by the hub; free ones where the page does not permit it (assumption 14). -/
def State.hubLoad (s : State) (ctx va n : Nat) : List Byte :=
  match loadBytes s (((s.getCtx ctx).map (·.root)).getD 0) va n with
  | .ok bs => bs
  | .error _ => (List.range n).map fun i => Config.unreadByte s.tick (va + i)

/-- Bounce pages that a `place` holds whose sender has its status, until its bytes are in their place (R298). -/
def Send.bouncePages (x : Send) : Nat :=
  match x.op with
  | .place _ bs _ => if x.host.isNone then (bs.length + 4095) / 4096 else 0
  | _ => 0

/-- Fewer than 16 bounce pages are free: new message-class traffic is refused (R298). -/
def State.bounceFull (s : State) : Bool :=
  decide (s.bounces.length + s.sends.foldl (fun n x => n + x.bouncePages) 0 > Config.moreBouncePages)

/-- A receipt and a count, in one step (R190). -/
def State.addReceipt (s : State) (n : DWord) (r : Receipt) : State :=
  s.onEntry n fun e => { e with receipts := e.receipts ++ [r], count := e.count + 1 }

/-- The payload bytes that a line of the destination takes come, in part, from poisoned 16-byte units. -/
def badIn (va l : Nat) (bad : List Bool) : Bool := (bad.mapIdx fun i b => b && (va + 16 * i) / 64 = l).any id

/-- The lines of a message placed at an address: poisoned with the units of its payload that they take, else cleared where it covers them
whole (R331). -/
def State.placedPoison (s : State) (root va n : Nat) (bad : List Bool) : State :=
  (List.range (if n = 0 then 0 else (va + n - 1) / 64 + 1 - va / 64)).foldl (fun s i =>
    let l := va / 64 + i
    match translate s root hubWrite (64 * l) with
    | .ok (pa, _) =>
      if badIn va l (bad.take ((n + 15) / 16)) then s.setPoison (.mem (pa / 64) 0) true
      else if decide (va ≤ 64 * l) && decide (64 * l + 64 ≤ va + n) then s.setPoison (.mem (pa / 64) 0) false else s
    | .error _ => s) s

/-- An accepted message is placed in the oldest posted buffer (R190, R298): at once, through a bounce page, or not at all
when the buffer's page is fatal. The status goes to the sender. `none` while the write must wait (R347). -/
def State.placeMessage (s : State) (e : NameEntry) (len : Nat) (tag dom : Half) (payload : List Byte) (bad : List Bool) : Option (State × Word) :=
  match e.posts with
  | [] => some (s, stNopost)
  | p :: rest =>
    let s := s.setEntry { e with posts := rest }
    let cut := payload.take p.len
    let st := if len > p.len then stTrunc else stOk
    let root := ((s.getCtx e.ctx).map (·.root)).getD 0
    match storeBytes s root 4 p.addr.toNat cut with
    | .ok s' =>
      let s' := s'.placedPoison root p.addr.toNat cut.length bad
      some ((s'.addReceipt e.name ⟨p.id, if bad.any id then stAbsent else st, BitVec.ofNat 32 len, tag, dom⟩).presentHost e.name, st)
    | .error (.trap (.miss va a acc)) =>
      let id := s.nextId
      let s := { s with nextId := id + 1, bounces := s.bounces ++ [(⟨id, e.name, p, cut, len, decide (st = stTrunc), tag, dom, e.ctx, bad⟩ : Bounce)] }
      some (s.raiseFault e.ctx 0xFFFF ((Config.recordField s.tick 4).toNat % 256) a 0 acc va (some (.bounce id)), st)
    | .error (.trap (.protect va a k acc)) =>
      let s := s.raiseFault e.ctx 0xFFFF ((Config.recordField s.tick 4).toNat % 256) a k acc va none
      some ((s.addReceipt e.name ⟨p.id, stAbsent, 0, tag, dom⟩).presentHost e.name, st)
    | .error (.wait _) => none
    | .error _ => some (s, st)

/-- One send resolved at its target's entry: its status and the new state, or none while the target is in TRANSIT or a message's
write must wait (R347). -/
def State.resolve (s : State) (n : DWord) (op : SendOp) (anyGen : Bool) (gen dom : Half) : Option (Word × State) :=
  match s.entry n with
  | none => some (stAbsent, s)
  | some e =>
    if e.st = 4 then none
    else
      match sendRefusal e op anyGen gen dom with
      | some st => some (st, s)
      | none =>
        match op with
        | .sig k => some (stOk, (s.setEntry { e with count := e.count + k }).presentHost n)
        | .wake => some (stOk, (s.setEntry { e with wake := true }).presentHost n)
        | .dep k v sig =>
          some (stOk, (s.setEntry { e with dep := e.dep.setIfInBounds k v, count := e.count + sig.toNat }).presentHost n)
        | .msg len tag payload bad => (s.placeMessage e len tag dom payload bad).map fun x => (x.2, x.1)
        | .place .. => none

/-- A send whose status is recorded nowhere (R265, R266): `nsig.any` of 1. One to another module travels there. -/
def State.signalQuiet (s : State) (n : DWord) (dom : Half) : State :=
  let held : State := { s with nextId := s.nextId + 1, sends := s.sends ++ [⟨s.nextId, none, none, 0, .sig 1, n, true, 0, dom, none, none⟩] }
  if n = 0 then s
  else if s.remote n then held
  else
    match s.resolve n (.sig 1) true 0 dom with
    | some (_, s') => s'
    | none => held

/-! ## The wait table (R178 to R181, R283) -/

/-- Waiters of (context, va), oldest first. -/
def State.waiters (s : State) (ctx : Nat) (va : DWord) : List WEntry := s.wtab.filter fun e => e.ctx = ctx && e.va = va

/-- The wait of a split of a warp is met. -/
def Warp.wakeSplit (w : Warp) (sp : Nat) : Warp :=
  let p := w.splitAt sp
  match p.wait with
  | some (.wwait _) => w.setSplit sp { p with wait := some (.wwait true) }
  | _ => w

/-- One waiter released: a warp's wait is met, resident or saved; a host thread's wake word is written (R282). -/
def State.release (s : State) (e : WEntry) : State :=
  let s := { s with wtab := s.wtab.filter fun x => x.id != e.id }
  match e.warp with
  | none => s.wakeWord e.wakeAddr.toNat 6 e.hslot 2
  | some k =>
    match s.getWarp k with
    | some w => s.setWarp (w.wakeSplit e.hslot)
    | none => { s with saved := s.saved.map fun v => { v with warps := v.warps.map fun w => if w.key = k then w.wakeSplit e.hslot else w } }

/-- `wwake`: up to n waiters, oldest first; all for 0xFFFF_FFFF (R180). The number released. -/
def State.wakeN (s : State) (ctx : Nat) (va : DWord) (n : Nat) : State × Nat :=
  let ws := s.waiters ctx va
  let ws := if n = 2 ^ 32 - 1 then ws else ws.take n
  (ws.foldl (fun s e => s.release e) s, ws.length)

end Sys2Proof.Machine
end

