-- ==== Sys2Proof/Machine/StreamUnit.lean ====
section
/-!
DEFINITION. The stream unit: sources, watermarks, windows, records, results and the output watermark (R299 to R311).
-/
namespace Sys2Proof.Machine

def State.stream (s : State) (n : Nat) : Option Stream := s.streams.find? fun x => x.n = n

/-- The descriptor's device fields (R299). -/
def Stream.deviceBytes (x : Stream) : List Byte :=
  leBytes 8 x.head ++ leBytes 8 x.tail ++ leBytes 8 x.wm ++ leBytes 8 x.outwm ++ leBytes 8 x.ovfcnt ++
    leBytes 8 (match x.held with | some i => i % 2 ^ 32 + 2 ^ 32 | none => 0)

/-- The stream's new state, its device fields written to the descriptor in memory. -/
def State.putStream (s : State) (x : Stream) : State :=
  let s := { s with streams := s.streams.map fun (y : Stream) => if y.n = x.n then x else y }
  let s := s.writeMem 0 (x.desc + 72) x.deviceBytes
  let s := x.sources.foldl (fun s src =>
    s.writeMem 0 (x.desc + 128 + 16 * src.n + 4) (leBytes 4 (if src.idle then 2 else 1) ++ leBytes 8 src.swm)) s
  x.windows.foldl (fun s w => s.writeMem 0 (x.desc + 384 + 16 * w.entry) (leBytes 4 w.index ++ leBytes 4 w.st ++ leBytes 8 w.fseq)) s

/-! ## Windows (R305, R306) -/

def Stream.endOf (x : Stream) (i : Nat) : Nat := i * x.slide + x.size

/-- The windows that contain an event time, in increasing index. -/
def Stream.windowsOf (x : Stream) (t : Nat) : List Nat :=
  let top := t / x.slide
  (((List.range 64).map fun k => top + k - 63).filter fun i => decide (t < x.endOf i)).eraseDups.filter fun i => decide (i * x.slide ≤ t)

/-- The table entry i mod 64. -/
def Stream.entryOf (x : Stream) (i : Nat) : Window :=
  (x.windows.find? fun w => w.entry = i % 64).getD ⟨i % 64, 0, 0, 0⟩

/-- WSTATE of window i: FREE unless its entry holds it. -/
def Stream.wstate (x : Stream) (i : Nat) : Nat :=
  let w := x.entryOf i
  if w.st != 0 && w.index = i then w.st else 0

/-- The entry can be taken by window i: it is FREE (R305). -/
def Stream.canOpen (x : Stream) (i : Nat) : Bool := (x.entryOf i).st = 0 || (x.entryOf i).index = i

def Stream.setWindow (x : Stream) (w : Window) : Stream :=
  { x with windows := w :: x.windows.filter fun y => y.entry != w.entry }

/-- Window indices that are not FREE, in increasing order. -/
def Stream.busyWindows (x : Stream) : List Nat :=
  ((x.windows.filter fun w => w.st != 0).map (·.index)).foldr insertNat []

def fireOf (x : Stream) (i : Nat) : Activation := ⟨x.n, false, i, 0, 0, []⟩

/-- OPEN windows whose end has passed are queued to fire (R304). -/
def Stream.fire (x : Stream) : Stream :=
  x.busyWindows.foldl (fun x i =>
    if x.wstate i = 1 && decide (x.endOf i ≤ x.wm) then
      { (x.setWindow ⟨i % 64, i, 2, x.tail⟩) with queue := x.queue ++ [fireOf x i] }
    else x) x

/-- No activation of the window is queued or running. -/
def Stream.quiet (x : Stream) (i : Nat) : Bool :=
  !(x.queue.any fun a => a.window = i) && (match x.running with | some a => a.window != i | none => true)

/-- Closable windows close; one that closes without `sdone` is held (R306, R311). -/
def Stream.close (x : Stream) : Stream :=
  x.busyWindows.foldl (fun x i =>
    if decide (x.wm ≥ x.endOf i + x.late) && x.quiet i then
      if x.wstate i = 3 then { (x.setWindow ⟨i % 64, i, 0, (x.entryOf i).fseq⟩) with held := some i }
      else if x.wstate i = 4 then x.setWindow ⟨i % 64, i, 0, (x.entryOf i).fseq⟩
      else x
    else x) x

/-- Records whose every window is FREE retire: HEAD (R300). -/
def Stream.retire (x : Stream) : Stream :=
  let live := x.times.filter fun q => (x.windowsOf q.2).any fun i => x.wstate i != 0
  { x with head := live.foldl (fun h q => Nat.min h q.1) x.tail, times := live }

/-- OUTWM (R311). -/
def Stream.output (x : Stream) : Stream :=
  let pending := x.busyWindows.filter fun i => x.wstate i = 1 || x.wstate i = 2 || x.wstate i = 3
  let cap := match pending with | i :: _ => Nat.min x.wm (x.endOf i - x.slide) | [] => x.wm
  let cap := match x.held with | some h => Nat.min cap (x.endOf h) | none => cap
  if cap < x.size then x
  else
    let e := x.endOf ((cap - x.size) / x.slide)
    if e > x.outwm then { x with outwm := e } else x

/-- WM by R304. -/
def Stream.raiseWm (x : Stream) : Stream :=
  match x.sources.filter fun s => !s.idle with
  | [] => x
  | a :: r => { x with wm := Nat.max x.wm (r.foldl (fun m (s : Source) => Nat.min m s.swm) a.swm) }

/-- WM by R304, with what follows from it; OUTWM is computed again when WM has changed (R311). -/
def Stream.recompute (x : Stream) : Stream :=
  let y := x.raiseWm
  if y.wm = x.wm then y.fire.close.retire else y.fire.close.retire.output

/-! ## Sources (R303) -/

/-- Activity of a source; an idle source rejoins with SWM raised to WM. -/
def Stream.touch (x : Stream) (src now : Nat) : Stream :=
  { x with sources := x.sources.map fun (s : Source) =>
      if s.n = src then { s with idle := false, activity := now, swm := if s.idle then Nat.max s.swm x.wm else s.swm } else s }

/-- A source's watermark raised; whether it was (R184). -/
def Stream.raiseSwm (x : Stream) (src time : Nat) : Stream × Bool :=
  let up := x.sources.any fun s => s.n = src && decide (time > s.swm)
  ({ x with sources := x.sources.map fun (s : Source) => if s.n = src then { s with swm := Nat.max s.swm time } else s }, up)

/-- A stream's new state, propagated down the chain of output streams (R311). -/
def State.settleStream (s : State) : Nat → Stream → Nat → State
  | 0, x, _ => s.putStream x
  | fuel + 1, x, oldOut =>
    let s := s.putStream x
    if x.outwm > oldOut && x.out.getLsbD 15 then
      match s.stream (x.out.toNat % 256) with
      | some y =>
        let src := x.out.toNat / 256 % 16
        if y.sources.any fun q => q.n = src then
          let (y', _) := (y.touch src s.time19).raiseSwm src x.outwm
          State.settleStream s fuel y'.recompute y.outwm
        else s
      | none => s
    else s

def State.updateStream (s : State) (old new : Stream) : State := s.settleStream 256 new old.outwm

/-! ## Records (R300, R307) -/

def Stream.slotSize (x : Stream) : Nat := (16 + 4 * x.p + 15) / 16 * 16

def recordBytes (p time : Nat) (key : Word) (src : Nat) (late : Bool) (payload : VReg) : List Byte :=
  leBytes 8 time ++ leBytes 4 key.toNat ++ leBytes 4 (src + 16 * late.toNat) ++ ((payload.toList.take p).flatMap fun w => leBytes 4 w.toNat)

/-- A FREE window that the record opens: OPEN, or QUEUED at once when its end has passed (R306). -/
def Stream.openWindow (x : Stream) (i : Nat) : Stream :=
  if x.wstate i != 0 then x
  else if x.endOf i > x.wm then x.setWindow ⟨i % 64, i, 1, (x.entryOf i).fseq⟩
  else { (x.setWindow ⟨i % 64, i, 2, x.tail⟩) with queue := x.queue ++ [fireOf x i] }

/-- `srec` (R183, R307): its status and the new state, or none while its write must wait (R347). A record of the overflow ring has LATE 0
(assumption 103). -/
def State.doSrec (s : State) (x0 : Stream) (src : Nat) (key : Word) (t : Nat) (payload : VReg) : Option (Word × State) :=
  let x := x0.touch src s.time19
  let ws := x.windowsOf t
  let closed := ws.filter fun i => x.wstate i = 0 && decide (x.endOf i + x.late ≤ x.wm)
  let live := ws.filter fun i => !closed.contains i
  if live.isEmpty then
    let a := x.ovf + x.slotSize * (x.ovfcnt % 2 ^ x.ovfLog)
    (s.hubStore x.ctx a (recordBytes x.p t key src false payload)).map fun s =>
      (stOverflow, s.updateStream x0 ({ x with ovfcnt := x.ovfcnt + 1 }).recompute)
  else
    let am := if x.amend = 0 then [] else live.filter fun i => x.wstate i ≥ 2
    if x.tail - x.head ≥ 2 ^ x.log2n || live.any (fun i => x.wstate i = 0 && !x.canOpen i) ||
        decide ((x.queue.filter (·.amend)).length + am.length > 64) then some (stBusy, s)
    else
      let late := decide (t < x.wm)
      let stored := s.hubStore x.ctx (x.ringBase + x.slotSize * (x.tail % 2 ^ x.log2n)) (recordBytes x.p t key src late payload)
      let x := { x with tail := x.tail + 1, times := x.times ++ [(x.tail, t)] }
      let x := live.foldl (fun x i => x.openWindow i) x
      let acts := am.map fun i => (⟨x.n, true, i, key, BitVec.ofNat 64 t, payload.toList.take x.p⟩ : Activation)
      let x := { x with queue := x.queue ++ acts }
      stored.map fun s => (if late then stLate else stOk, s.updateStream x0 x.recompute)

def State.doSwm (s : State) (x0 : Stream) (src t : Nat) : Word × State :=
  let (x, up) := (x0.touch src s.time19).raiseSwm src t
  (if up then stOk else stIgnored, s.updateStream x0 x.recompute)

def State.doSidle (s : State) (x0 : Stream) (src : Nat) : Word × State :=
  let x := { x0 with sources := x0.sources.map fun (q : Source) => if q.n = src then { q with idle := true } else q }
  (stOk, s.updateStream x0 x.recompute)

/-- `sdone` (R187, R306). -/
def State.doSdone (s : State) (x0 : Stream) (i : Nat) : Word × State :=
  let st := x0.wstate i
  if st = 4 then (stOk, s)
  else if st = 3 then
    (stOk, s.updateStream x0 (x0.setWindow { x0.entryOf i with st := 4 }).output)
  else (stNone, s)

/-- `spub` and `samend` (R186, R311); none while the write must wait (R347). -/
def State.doPublish (s : State) (x : Stream) (slot : Nat) (window : Word) (value : DWord) (amend : Bool) : Option (Word × State) :=
  let put (count : Nat) : Option (Word × State) :=
    (s.hubStore x.ctx (x.res + 16 * slot) (leBytes 8 value.toNat ++ leBytes 4 window.toNat ++ leBytes 4 (2 ^ 31 + count))).map fun t => (stOk, t)
  if slot ≥ x.resn then some (stAbsent, s)
  else
    if amend then
      let old := s.hubLoad x.ctx (x.res + 16 * slot) 16
      let ver := leNat ((old.drop 8).take 4)
      let c := leNat (old.drop 12)
      if c < 2 ^ 31 then some (stNone, s)
      else if ver != window.toNat then some (stStale, s)
      else put (Nat.min (2 ^ 31 - 1) (c % 2 ^ 31 + 1))
    else put 0

/-- The stream of a stream operation. -/
def StreamOp.stream : StreamOp → Option Nat
  | .srec n .. => some n
  | .swm n .. => some n
  | .sidle n _ => some n
  | .spub _ _ _ _ n => some n
  | .sdone n _ => some n
  | .absent => none

/-- The source of a stream operation. -/
def StreamOp.source : StreamOp → Option Nat
  | .srec _ src .. => some src
  | .swm _ src _ => some src
  | .sidle _ src => some src
  | _ => none

/-- The stream that an operation of a context names is configured, of that context, and has the operation's source (R299, R302). -/
def State.streamFor (s : State) (c : Nat) (op : StreamOp) : Option Stream :=
  (op.stream.bind s.stream).filter fun x => x.ctx = c && op.source.all fun n => x.sources.any fun q => q.n = n

/-- A stream operation of a context resolved against the stream as it is now (R301); none while it must wait (R347). -/
def State.resolveStream (s : State) (c : Nat) (op : StreamOp) : Option (Word × State) :=
  match s.streamFor c op with
  | none => some (stAbsent, s)
  | some x =>
    match op with
    | .absent => some (stAbsent, s)
    | .srec _ src key t payload => s.doSrec x src key t payload
    | .swm _ src t => some (s.doSwm x src t)
    | .sidle _ src => some (s.doSidle x src)
    | .spub slot w v amend _ => s.doPublish x slot w v amend
    | .sdone _ w => some (s.doSdone x w)

/-- Operations of one warp on one stream keep their order, unless they come from different sources (R301). -/
def StreamOp.ordered (a b : StreamOp) : Bool :=
  a.stream = b.stream && (a.source.isNone || b.source.isNone || a.source = b.source)

end Sys2Proof.Machine
end

