-- ==== Sys2Proof/Machine/Life.lean ====
section
/-!
DEFINITION. The lives of barriers, warps, blocks, launches and contexts: what a barrier does with an arrival (R140 to
R143, R241), what the end of a warp, a block or a launch does (R133, R265, R269, R332), lauter cells (R235 to R238), and
the reset of a context (R286).
-/
namespace Sys2Proof.Machine

/-! ## Warps of a block -/

def Warp.ofBlk (core slot : Nat) (w : Warp) : Bool := w.key.core = core && w.key.slot = slot

def State.onBlk (s : State) (core slot : Nat) (f : Block → Block) : State :=
  match s.getBlk core slot with
  | some b => s.setBlk (f b)
  | none => s

def State.onCtx (s : State) (c : Nat) (f : Ctx → Ctx) : State :=
  match s.getCtx c with
  | some x => s.setCtx (f x)
  | none => s

/-! ## Block barriers (R140, R241) -/

/-- The generation is complete: every member has arrived. A barrier left without members now and next stays as it
is (assumption 15). -/
def Bar.full (b : Bar) : Bool :=
  b.arr == b.mem && b.arrSeq == b.memSeq && (b.mem != 0 || b.memSeq || b.nmem != 0 || b.nmemSeq)

/-- The next generation, in which the arrivals that waited count (R241). -/
def Bar.advance (b : Bar) : Bar :=
  { b with gen := b.gen + 1, mem := b.nmem, memSeq := b.nmemSeq, arr := b.wait &&& b.nmem, arrSeq := b.waitSeq && b.nmemSeq,
           wait := 0, waitSeq := false, abn := false }

/-- A warp learns how a generation in which it arrived completed. -/
def Warp.learn (cluster : Bool) (n : Nat) (gen : Word) (w : Warp) : Warp :=
  { w with lastArr := w.lastArr.map fun a => if a.1 = cluster && a.2.1 = n && a.2.2.1 = gen then (cluster, n, gen, true) else a }

def rankBit (r : Nat) : Word := 1#32 <<< r

/-- A warp's arrival is recorded with its generation. -/
def Warp.arrivedAt (w : Warp) (cluster : Bool) (n : Nat) (gen : Word) : Warp :=
  { w with lastArr := (cluster, n, gen, false) :: w.lastArr.filter fun a => !(a.1 = cluster && a.2.1 = n) }

/-- The sequencer learns how the generation it waits for completed, and its second arrival counts in the next one: `mbara` is then
done, and `mbarw` waits there (R171, R241). One that is no member any more arrives again. -/
def Seq.completed (q : Seq) (n : Nat) (x : Bar) : Seq :=
  let q := if q.waiting = some (n, x.gen) then { q with abn := x.abn } else q
  match q.late with
  | .none => q
  | some (m, g, w) =>
    if m != n || g != x.gen then q
    else if !x.nmemSeq then { q with late := .none }
    else if w then { q with late := .none, waiting := some (n, x.gen + 1) }
    else { q with late := .none, pc := q.pc + 4 }

/-- Complete generations of a block barrier complete, one after another. One whose membership is empty is
complete already, and ends once the next one has members (R241, assumption 15). -/
def State.completeBar (s : State) (core slot n : Nat) : Nat → State
  | 0 => s
  | fuel + 1 =>
    match s.getBlk core slot with
    | none => s
    | some b =>
      match b.barrier[n]? with
      | none => s
      | some x =>
        if !x.full then s
        else
          let y := x.advance
          let s := s.setBlk { b with barrier := b.barrier.set n y, seq := b.seq.completed n x }
          let s := if x.abn then s.mapWarps fun w => if w.ofBlk core slot then w.learn false n x.gen else w else s
          let s := if y.arr = 0 then s
            else s.mapWarps fun w => if w.ofBlk core slot && y.arr &&& rankBit w.key.rank != 0 then w.arrivedAt false n y.gen else w
          s.completeBar core slot n fuel

/-- A block barrier changed by an event; a generation that becomes complete completes. -/
def State.touchBar (s : State) (core slot n : Nat) (f : Bar → Bar) : State :=
  match s.getBlk core slot with
  | none => s
  | some b =>
    match b.barrier[n]? with
    | none => s
    | some x => (s.setBlk { b with barrier := b.barrier.set n (f x) }).completeBar core slot n 3

/-! ## Cluster barriers (R142, R241) -/

def CBar.full (b : CBar) : Bool := b.mem.all (fun k => b.arr.contains k) && !(b.mem.isEmpty && b.nmem.isEmpty)

def State.cbar (s : State) (ctx cluster n : Nat) : CBar :=
  (s.cbars.find? fun b => b.ctx = ctx && b.cluster = cluster && b.n = n).getD ⟨ctx, cluster, n, [], [], 0, [], [], false⟩

def State.setCbar (s : State) (b : CBar) : State :=
  { s with cbars := b :: s.cbars.filter fun x => !(x.ctx = b.ctx && x.cluster = b.cluster && x.n = b.n) }

def CBar.advance (x : CBar) : CBar :=
  { x with gen := x.gen + 1, mem := x.nmem, arr := x.wait.filter x.nmem.contains, wait := [], abn := false }

/-- Complete generations of a cluster barrier complete, one after another. -/
def State.completeCbar (s : State) (ctx cluster n : Nat) : Nat → State
  | 0 => s
  | fuel + 1 =>
    let x := s.cbar ctx cluster n
    if !x.full then s
    else
      let y := x.advance
      let s := s.setCbar y
      let s := if x.abn then s.mapWarps fun w => if x.mem.contains w.key then w.learn true n x.gen else w else s
      let s := if y.arr.isEmpty then s else s.mapWarps fun w => if y.arr.contains w.key then w.arrivedAt true n y.gen else w
      s.completeCbar ctx cluster n fuel

/-- A cluster barrier changed by an event, as `touchBar`. -/
def State.touchCbar (s : State) (ctx cluster n : Nat) (f : CBar → CBar) : State :=
  (s.setCbar (f (s.cbar ctx cluster n))).completeCbar ctx cluster n 3

/-- A warp leaves every barrier it belongs to: it counts as arrived, and as a killed member it sets ABN (R140, R241). -/
def State.leaveBarriers (s : State) (k : WKey) (killed : Bool) : State :=
  match s.getBlk k.core k.slot with
  | none => s
  | some b =>
    let bit := rankBit k.rank
    let s := (List.range b.bars).foldl (fun s n => s.touchBar k.core k.slot n fun x =>
      if x.mem &&& bit != 0 then { x with arr := x.arr ||| bit, nmem := x.nmem &&& ~~~bit, abn := x.abn || killed }
      else { x with nmem := x.nmem &&& ~~~bit }) s
    let c := s.fab.clusterOf k.core
    (List.range 4).foldl (fun s n => s.touchCbar b.ctx c n fun x =>
      if x.mem.contains k then
        { x with arr := if x.arr.contains k then x.arr else x.arr ++ [k], nmem := x.nmem.filter (· != k), abn := x.abn || killed }
      else { x with nmem := x.nmem.filter (· != k) }) s

/-! ## Lauter cells (R236 to R238) -/

/-- A key that has neither been folded nor abandoned nor queued. -/
def CLine.present (l : CLine) (k : Nat) : Bool := decide (k < l.next) || l.queue.any (fun q => q.1 = k)

/-- NEXT advances over folded, queued and abandoned keys; each queued contribution is folded as it passes. -/
def CLine.advance : Nat → CLine → CLine
  | 0, l => l
  | fuel + 1, l =>
    match l.queue.find? fun q => q.1 = l.next with
    | some (_, some v) =>
      CLine.advance fuel { l with next := l.next + 1, sum := f32Add l.sum v, arrived := l.arrived + 1, queue := l.queue.filter fun q => q.1 != l.next }
    | some (_, .none) =>
      CLine.advance fuel { l with next := l.next + 1, queue := l.queue.filter fun q => q.1 != l.next }
    | .none => l

/-- The cell completes when NEXT reaches N (R238). -/
def CLine.complete (l : CLine) : CLine :=
  let l := CLine.advance (l.queue.length + 1) l
  if l.st = 1 && decide (l.next ≥ l.count) then { l with st := if l.aband = 0 then 2 else 3, queue := [], owners := [] } else l

/-- A contribution or an abandonment (`none`) of one key of an open cell; ABAND counts a key when it is abandoned (R236). -/
def CLine.take (l : CLine) (k : Nat) (v : Option Word) : CLine :=
  if decide (k ≥ l.count) || l.present k then (if v.isSome then { l with kerr := true } else l)
  else ({ l with queue := l.queue ++ [(k, v)], aband := l.aband + v.isNone.toNat }).complete

/-- A warp that has ended owns no key any more; the groups that it bound stay bound (R237). -/
def State.disown (s : State) (k : WKey) : State :=
  { s with clines := s.clines.map fun (l : CLine) => { l with owners := l.owners.map fun o => if o.2 = some k then (o.1, none) else o } }

/-- The owned keys of a killed warp are abandoned in every open cell of its context (R237). -/
def State.abandonKeys (s : State) (k : WKey) (cbase csize : Nat) : State :=
  (s.clines.filter fun l => l.st = 1 && decide (cbase ≤ 64 * l.n) && decide (64 * l.n < cbase + csize)).foldl (fun s l =>
    let gs := (l.owners.filter fun o => o.2 = some k).map (·.1)
    if gs.isEmpty then s
    else
      let keys := gs.flatMap fun g => (List.range 32).map fun i => g * 32 + i
      s.syncCell (keys.foldl (fun l x => if l.st = 1 then l.take x .none else l) l) true) s

/-! ## Launches and blocks (R265, R269) -/

def State.setLaunch (s : State) (l : Launch) : State :=
  { s with launches := s.launches.map fun x => if x.id = l.id then l else x }

def State.launch (s : State) (id : Nat) : Option Launch := s.launches.find? fun l => l.id = id

def State.launchStatus (s : State) (l : Launch) (st : Nat) : State :=
  (s.setLaunch { l with status := st }).wrN (l.recAddr + 120) 4 st

/-- A launch completes: STATUS 3, and the completion name is signalled (R265). -/
def State.completeLaunch (s : State) (l : Launch) : State :=
  let dom := ((s.getCtx l.ctx).map (·.domain)).getD 0
  (s.launchStatus l 3).signalQuiet l.completion dom

/-- The context's LOST counter, and its field of the descriptor (R259, R269). -/
def State.countLost (s : State) (ctx : Nat) : State :=
  match s.getCtx ctx with
  | some c => (s.setCtx { c with lost := c.lost + 1 }).wrN (c.desc + 48) 4 (c.lost + 1).toNat
  | none => s

/-- Steal requests that a block posted, or that wait for it, are withdrawn (R148). -/
def State.withdraw (s : State) (core ctx : Nat) : State :=
  let s := s.unload
  let here := ((s.cores.find? fun c => c.id = core).map (·.mailbox)).getD []
  let gone := here.filter fun r => r.ctx = ctx
  { s with
    cores := s.cores.map fun (c : Core) => { c with mailbox := c.mailbox.filter fun r => !(r.core = core && r.ctx = ctx) && !(c.id = core && r.ctx = ctx) }
    blks := s.blks.map fun (b : Block) =>
      if (b.core = core && b.ctx = ctx) || gone.any (fun r => r.core = b.core && r.ctx = b.ctx) then { b with stealPosted := false } else b }

/-- No port is held by a warp (R210, R332). -/
def State.dropPorts (s : State) (k : WKey) : State :=
  let c := s.getCore k.core
  s.setCore { c with ports := c.ports.mapIdx fun _ p => match p with | some (x, _) => if x = k then none else p | none => none }

/-- What a core keeps of a context's item queue beside the block that stands there. -/
def State.kept (s : State) (core ctx : Nat) : List Word := (((s.getCore core).left.find? fun x => x.1 = ctx).map (·.2)).getD []

def State.keepItems (s : State) (core ctx : Nat) (q : List Word) : State :=
  let c := s.getCore core
  let rest := c.left.filter fun x => x.1 != ctx
  s.setCore { c with left := if q.isEmpty then rest else (ctx, q) :: rest }

/-- The item queue that a block leaves stays on its core, for its context (R222). -/
def State.leaveItems (s : State) (b : Block) : State :=
  if b.items.isEmpty then s else s.keepItems b.core b.ctx (b.items ++ s.kept b.core b.ctx)

/-- The first 256 items of a context's queue on a core stand with its block there; what was saved beyond them follows as they are dealt
(R222, assumption 102). -/
def State.topItems (s : State) (b : Block) : State × Block :=
  let q := s.kept b.core b.ctx
  if q.isEmpty then (s, b) else (s.keepItems b.core b.ctx ((b.items ++ q).drop 256), { b with items := (b.items ++ q).take 256 })

/-- The pre-emption ends once no named block is left: SAVED, or RUNNING where every one of them ended first (R286). -/
def State.settlePre (s : State) (c : Nat) : State :=
  if s.allBlks.any fun b => b.ctx = c && b.draining then s
  else s.onCtx c fun x =>
    if x.pre = .draining || x.pre = .forced then { x with pre := if s.saved.any fun v => v.blk.ctx = c then .saved else .running } else x

/-- A block's records leave the core: `accown` and the ports it held are free, and its loads that wait for full
granules end with it. -/
def State.freeBlock (s : State) (b : Block) : State :=
  let s := s.unload
  { s with
    blks := s.blks.filter fun x => !(x.core = b.core && x.slot = b.slot)
    warps := s.warps.filter fun w => !(w.ofBlk b.core b.slot)
    ops := s.ops.filter fun o => !(o.key.core = b.core && o.key.slot = b.slot && (match o.kind with | .feload .. => true | _ => false))
    cores := s.cores.map fun (c : Core) =>
      if c.id = b.core then
        { c with
          accown := if c.accown = BitVec.ofNat 3 (4 + b.slot) then 0 else c.accown
          ports := c.ports.mapIdx fun _ p => match p with | some (k, _) => if k.core = b.core ∧ k.slot = b.slot then none else p | none => none }
      else c }

/-- An activation of a standing kernel has ended (R306, R308). -/
def State.endActivation (s : State) (b : Block) (a : Activation) : State :=
  let s := s.unload
  let s := { s with
    blks := s.blks.map fun (x : Block) => if x.core = b.core ∧ x.slot = b.slot then { x with act := none, draining := false } else x
    cores := s.cores.map fun (c : Core) => if c.id = b.core ∧ c.accown = BitVec.ofNat 3 (4 + b.slot) then { c with accown := 0 } else c }
  match s.stream a.stream with
  | none => s
  | some x =>
    let y := { x with running := none }
    let s := s.updateStream x y.close.retire
    match s.launch b.launch with
    | some l => if l.unbound then ((s.leaveItems b).freeBlock b).completeLaunch l else s
    | none => s

/-- A block whose last warp has exited (R265, R269, R271). -/
def State.endBlock (s : State) (core slot : Nat) : State :=
  match s.getBlk core slot with
  | none => s
  | some b =>
    let s := if b.inbox.isSome then (s.onBlk core slot fun b => { b with inbox := none }).countLost b.ctx else s
    let s := s.withdraw core b.ctx
    let s := match b.act with
      | some a => s.endActivation b a
      | none =>
        let s := (s.leaveItems b).freeBlock b
        match s.launch b.launch with
        | none => s
        | some l =>
          let l := { l with finished := l.finished + 1 }
          let s := s.setLaunch l
          if l.finished ≥ l.blocks then s.completeLaunch l else s
    if b.draining then s.settlePre b.ctx else s

/-- A block ends with its last warp, once what its warps' engine operations still do has ended (R332). -/
def State.settleEnd (s : State) (core slot : Nat) : State :=
  let mine := s.allWarps.filter fun w => w.ofBlk core slot
  match s.getBlk core slot with
  | none => s
  | some b =>
    if b.life != .resident || mine.isEmpty || mine.any (fun w => !w.exited) || s.ops.any (fun o => o.key.core = core && o.key.slot = slot) ||
        (b.act.isNone && (s.launch b.launch).any (·.standing)) then s
    else s.endBlock core slot

/-! ## The end of a warp (R133, R332) -/

/-- A full-empty load that only its split waits for. -/
def EngOp.heldLoad (o : EngOp) : Bool := o.cls = .none && (match o.kind with | .feload .. => true | _ => false)

/-- The warp has no splits left. -/
def Warp.ended (w : Warp) : Warp :=
  { w with splits := Vector.replicate 4 Split.none, recon := [], callParks := [], exited := true, halted := false, pend := [], rack := .none, rackNext := .none }

/-- A warp ends: it leaves its barriers, its name goes DEAD, and its block ends with its last warp. A killed warp's keys
are abandoned, what its operations would return is discarded, its waiters leave the wait table and its port is free. -/
def State.endWarp (s : State) (k : WKey) (killed : Bool) : State :=
  match s.getWarp k with
  | none => s
  | some w =>
    let s := s.leaveBarriers k killed
    let s := s.killName w.name
    let s :=
      if killed then
        let s := match s.getCtx (s.ctxOfBlk k.core k.slot) with | some c => s.abandonKeys k c.cbase c.csize | none => s
        ({ s with
          sends := s.sends.map fun (x : Send) => if x.key = some k then { x with key := none } else x
          ops := s.ops.filter fun o => !(o.key = k && o.heldLoad)
          wtab := s.wtab.filter fun e => e.warp != some k }).dropPorts k
      else s
    ((s.disown k).onWarp k Warp.ended).settleEnd k.core k.slot

/-! ## The reset of a context (R286) -/

def State.namesOf (s : State) (c : Nat) : List DWord :=
  ((s.allWarps.filter fun w => w.level = .user && !w.exited && decide (s.ctxOfBlk w.key.core w.key.slot = c)).map (·.name)) ++
    (s.saved.filter fun v => v.blk.ctx = c).flatMap fun v => (v.warps.filter fun w => !w.exited).map (·.name)

/-- The actions of LOST: names DEAD, started launches lost, waiters freed, cores released. -/
def State.resetCtx (s : State) (c : Nat) : State :=
  let s := s.unload
  let s := (s.namesOf c).foldl (fun s n => s.killName n) s
  let s := (s.launches.filter fun l => l.ctx = c && l.status = 2).foldl (fun (s : State) l => s.launchStatus l 5) s
  let s := { s with wtab := s.wtab.filter fun e => e.ctx != c }
  let keys := (s.warps.filter fun w => decide (s.ctxOfBlk w.key.core w.key.slot = c)).map (·.key)
  let s := (s.blks.filter fun (b : Block) => b.ctx = c).foldl (fun (s : State) b => s.withdraw b.core c) s
  let kept := (s.saved.filter fun v => v.blk.ctx = c && !v.blk.freed).map (·.blk)
  let s := { s with
    ops := s.ops.filter fun o => o.ctx != c
    sends := s.sends.map fun (x : Send) => match x.key with | some k => if keys.contains k then { x with key := none } else x | none => x
    saved := s.saved.filter fun v => v.blk.ctx != c
    cbars := s.cbars.filter fun b => b.ctx != c
    streams := s.streams.map fun (x : Stream) => if x.ctx = c then { x with running := none, launch := none, queue := [] } else x
    warps := s.warps.filter fun w => !(w.key.slot = 4 && w.served.any fun (v : Served) => v.ctx = c)
    cores := s.cores.map fun (x : Core) =>
      { x with
        accown := if kept.any fun b => b.core = x.id && x.accown = BitVec.ofNat 3 (4 + b.slot) then 0 else x.accown
        records := x.records.filter fun (v : Served) => v.ctx != c
        accBusy := if x.handling.any fun (v : Served) => v.ctx = c then false else x.accBusy
        handling := x.handling.filter fun (v : Served) => v.ctx != c
        drainUntil := if x.handling.any fun (v : Served) => v.ctx = c then none else x.drainUntil
        left := x.left.filter fun q => q.1 != c
        ports := x.ports.mapIdx fun _ (p : Option (WKey × Nat)) => match p with
          | some (k, _) => if k.slot = 4 && x.handling.any fun (v : Served) => v.ctx = c then none else p
          | none => none } }
  let s := (s.blks.filter fun (b : Block) => b.ctx = c).foldl (fun (s : State) b => s.freeBlock b) s
  s.onCtx c fun x => { x with live := false, pre := .lost, halted := false, areas := [] }

end Sys2Proof.Machine
end

