-- ==== Sys2Proof/Machine/Traps.lean ====
section
/-!
DEFINITION. Taking a trap or fault, and returning from one: fault records (R334), replay (R221, R297, R329), the loss of
a warp (R332), handlers and their ends (R335, R195), faults of the firmware handler (R199), and the outcome of a word
that may trap or wait.
-/
namespace Sys2Proof.Machine

/-! ## Fault records (R334) -/

def Trap.code : Trap → Nat
  | .user _ => 1
  | .brk _ => 2
  | .illegal _ _ => 3
  | .reconvOverflow => 4
  | .barrierDivergence => 5
  | .resourceRange => 6
  | .operandFormat => 7
  | .address _ => 8
  | .protect _ _ _ _ => 8
  | .engine _ => 8
  | .windowOverflow => 9
  | .accFirstUse => 10
  | .poison .. => 11
  | .dqUnderflow => 12
  | _ => 0

/-- The detail field; the first-use trap's is written by `accTail`. -/
def Trap.detail : Trap → Nat
  | .user i => i.toNat
  | .brk i => i.toNat
  | .illegal c slot => c * 256 + slot
  | .address va => va.toNat
  | .protect va _ _ _ => va.toNat
  | .engine va => va.toNat
  | _ => 0

/-- Fatal causes, and every context-handler cause in a context without a handler (R334, R259). -/
def Trap.fatal (t : Trap) (handler seq : Bool) : Bool :=
  match t.code with
  | 7 => true
  | 8 => true
  | 9 => true
  | 10 => false
  | 11 => false
  | _ => seq || !handler

/-- The address of a record: warp slot w, or 64 for the sequencer. -/
def State.recordAddr (s : State) (core slot i : Nat) : Nat := s.fu.area + 64 * (65 * (4 * core + slot) + i)

/-- The address of a context's tile save area on a core (R292). -/
def State.tileArea (s : State) (ctx core : Nat) : Nat :=
  ((s.fu.tileSave.find? fun p => p.1 = ctx * 1024 + core).map (·.2)).getD 0

/-- Slots in the first-use detail, and the fields from offset 32 (R293, R334). -/
def State.accTail (s : State) (b : Block) : Nat × List Byte :=
  let own := (s.getCore b.core).accown
  let o := own.toNat % 4
  let valid := own.getLsbD 2
  let ob := if valid then
      match s.getBlk b.core o with
      | some x => some x
      | none => (s.saved.find? fun v => v.blk.core = b.core && v.blk.slot = o && !v.blk.freed).map (·.blk)
    else none
  (b.slot + o * 256,
    leBytes 8 ((ob.map fun x => s.tileArea x.ctx b.core).getD 0) ++
    leBytes 8 (if b.fresh then s.fu.zeroPage else s.tileArea b.ctx b.core) ++
    leBytes 4 (4 + b.slot) ++ leBytes 2 ((ob.map (·.acc)).getD 0) ++ leBytes 2 b.acc ++ leBytes 8 0)

/-- A fault record is written, and waits for its handler. -/
def State.raiseRecord (s : State) (b : Block) (ctx : Nat) (key : WKey) (sp wslot : Nat) (seq : Bool) (t : Trap) (pkt resume : DWord) : State :=
  let handler := ((s.getCtx ctx).map (·.handler)).getD false
  let fatal := t.fatal handler seq
  let addr := s.recordAddr b.core b.slot (if seq then 64 else wslot)
  let fresh := t.code = 10 && b.fresh
  let (det, tail) := if t.code = 10 then s.accTail b else (t.detail, leBytes 32 0)
  let s := s.writeMem 0 addr (leBytes 2 t.code ++ leBytes 2 ctx ++ leBytes 2 b.core ++ leBytes 1 (if seq then 0xFF else wslot) ++
    leBytes 1 (fatal.toNat + 2 * fresh.toNat + 4 * seq.toNat) ++ leBytes 8 pkt.toNat ++ leBytes 8 resume.toNat ++ leBytes 8 det ++ tail)
  let s := match t with
    | .protect va agent kind access => s.raiseFault ctx b.core (if seq then 0xFF else wslot) agent kind access va none
    | _ => s
  if t.code = 11 then s
  else
    let c := s.getCore b.core
    s.setCore { c with
      records := c.records ++ [⟨addr, key, sp, seq, t.code, ctx, fatal || decide (t.code = 10)⟩]
      accBusy := c.accBusy || decide (t.code = 10) }

/-! ## Replay (R221) -/

/-- A split at its region entry with its saved signature. -/
def Split.back (p : Split) : Split :=
  { p with pc := p.region, sig := p.saved, slot := 0, runLen := 0, wait := .none, late := [], ptrap := .none, pendCall := .none,
           rskip := p.rmerge.isSome, begun := 0 }

/-- The queue entries that a split, or its lanes, have pushed since a mark are discarded. -/
def Warp.dropLoads (w : Warp) (sp : Nat) (mask : Word) (mark : Nat) : Warp :=
  w.mapDq fun q => q.filter fun e => !((e.sp = sp || e.mask &&& mask != 0) && decide (mark ≤ e.id))

/-- Loads that waited take the room of discarded entries. -/
def Warp.refillDq (w : Warp) : Warp := [0, 1, 2, 3].foldl Warp.fillDq w

/-- A split goes back to its region entry with its saved signature; the queue entries that its lanes have pushed since then are
discarded, and the spill for its waiting call is given up (R221). A write to `sig` that has not taken effect is dropped with the run that made it (assumption 78). -/
def Warp.replay (w : Warp) (sp : Nat) : Warp :=
  let p := w.splitAt sp
  let w := { (w.setSplit sp p.back) with rackDone := .none, rack := w.rack.filter fun (x : Rack) => !x.spill || x.own != some sp }
  (w.dropLoads sp p.mask p.mark).refillDq

/-- The split stops before the packet it was in. -/
def Warp.stopAt (w : Warp) (sp : Nat) (pc : DWord) : Warp :=
  w.setSplit sp { w.splitAt sp with pc := pc, slot := 0, runLen := 0, wait := .none, ptrap := .none, begun := 0 }

/-! ## The ends of handlers (R335, R195) -/

def handlerKey (core : Nat) : WKey := ⟨core, 4, 0⟩

/-- The handler warp leaves its core: its operations end, and it waits for nothing and nobody any more. -/
def State.endHandler (s : State) (core : Nat) : State :=
  let s := s.unload
  { s with
    wtab := s.wtab.filter fun e => e.warp != some (handlerKey core)
    sends := s.sends.map fun (x : Send) => if x.key = some (handlerKey core) then { x with key := none } else x
    sops := s.sops.filter fun x => x.2.1 != handlerKey core
    warps := s.warps.filter fun w => w.key != handlerKey core
    ops := s.ops.filter fun o => o.key != handlerKey core
    cores := s.cores.map fun (c : Core) =>
      if c.id = core then
        { c with handling := none, drainUntil := none, drainFrom := 0,
                 ports := c.ports.mapIdx fun _ (p : Option (WKey × Nat)) => match p with
                   | some (k, _) => if k = handlerKey core then none else p
                   | none => none }
      else c }

/-- The served record becomes fatal: the firmware handler takes it next (R335). -/
def State.escalate (s : State) (core : Nat) : State :=
  let v := (s.getCore core).handling
  let s := s.endHandler core
  match v with
  | none => s
  | some v =>
    let s := s.wrN (v.addr + 7) 1 (s.rdN (v.addr + 7) 1 ||| 1)
    let c := s.getCore core
    s.setCore { c with records := { v with firmware := true } :: c.records }

/-- The handler ends and its context is reset (R335, R336). -/
def State.endFatal (s : State) (core : Nat) : State :=
  let v := (s.getCore core).handling
  let s := s.endHandler core
  match v with
  | none => s
  | some v => s.resetCtx v.ctx

/-- The served warp or sequencer goes on at its record's resume address: where it stopped, when the handler has left that as it was
(R356, assumption 36). -/
def State.resumeServed (s : State) (v : Served) (resume : DWord) : State :=
  if v.seq then s.onBlk v.key.core v.key.slot fun b => { b with seq := { b.seq with stopped := false, pc := resume } }
  else s.onWarp v.key fun w => { (if (w.splitAt v.sp).pc = resume then w else w.stopAt v.sp resume) with halted := false }

/-- `rte`, or the `exit` of a handler (R195, R335): resume, reset, or escalate. `none`: the resume address is no packet
address. The resume address of a sequencer is that of a matrix word, a multiple of four (R59), and is not held to the rule for packets
(assumption 101). -/
def State.returnHandler (s : State) (core : Nat) (firmware : Bool) : Option State :=
  match (s.getCore core).handling with
  | none => some (s.endHandler core)
  | some v =>
    let resume := BitVec.ofNat 64 (s.rdN (v.addr + 16) 8)
    if s.rdN (v.addr + 7) 1 % 2 = 1 then
      if firmware then some (s.endFatal core) else some (s.escalate core)
    else if resume.toNat % 12 != 0 && !v.seq then
      if firmware then none else some (s.escalate core)
    else some ((s.endHandler core).resumeServed v resume)

/-! ## Taking a trap -/

def State.endIssue (s : State) (e : Ended) : State := { s with issue := { s.issue with ended := some e, pfx := none } }

/-- The fault of a copy has been taken. -/
def Warp.takeCopyFault (w : Warp) (t : Trap) : Warp :=
  match t with
  | .engine va => { w with copyFault := w.copyFault.eraseP fun f => f.va = va }
  | _ => w

/-- R199: a synchronous fault of the firmware handler, with its integrity event (R333). An `ncont` that is no packet address (R44)
counts as 0 (assumption 79). -/
def State.nestedFault (s : State) (t : Trap) : State :=
  let s := match t with
    | .signature => s.logError 2 s.warp.wslot s.core.id s.ctx.id 0xFFFF 0
    | .poison tile row => s.logError 6 s.warp.wslot s.core.id s.ctx.id tile row
    | _ => s
  if s.warp.ncont = 0 || s.warp.ncont.toNat % 12 != 0 then s.endFatal s.core.id
  else { s with warp := { ((s.warp.takeCopyFault t).stopAt s.issue.sp s.warp.ncont) with nfault := s.warp.nfault + 1 } }

/-- The loss of the issuing warp (R332); after the halt of a fatal fault it is stopped instead, for the dump (R332, R336). -/
def State.loseWarp (s : State) : State :=
  if s.ctx.halted then { s with warp := { (s.warp.stopAt s.issue.sp s.issue.pkt) with halted := true } }
  else
    let s := s.raiseRecord s.blk s.ctx.id s.warp.key s.issue.sp s.warp.wslot false (.poison 0xFFFF 0) s.issue.pkt s.issue.pkt
    s.endWarp s.warp.key true

/-- A trap or a fault that is recorded: the warp stops (R334, R356). After the halt of a fatal fault no record is
written (R336). -/
def State.recordTrap (s : State) (t : Trap) (resume : DWord) : State :=
  let s := if s.ctx.halted then s
    else s.raiseRecord s.blk s.ctx.id s.warp.key s.issue.sp s.warp.wslot false t s.issue.pkt resume
  { s with warp := { (s.warp.stopAt s.issue.sp resume) with halted := true } }

/-- The packet that the split goes on at after this one: its own program counter once a deferred `trap` is taken (R193). -/
def State.nextPacket (s : State) : DWord := if s.split.ptrap.isSome then s.split.pc else s.issue.pkt + 12

/-- A transfer to an address that is no packet address: the split stops after the transferring instruction (R58, R356). -/
def State.recordTransfer (s : State) (t : Trap) : State :=
  if s.issue.next ≥ 3 then s.recordTrap t (s.issue.pkt + 12)
  else
    let r := s.recordTrap t s.issue.pkt
    { r with warp := r.warp.setSplit s.issue.sp { r.warp.splitAt s.issue.sp with slot := s.issue.next } }

/-- Taking a trap (R296, R329, R331, R334, R335): replay, loss, or a record for a handler. -/
def takeTrap (t : Trap) (s : State) : State :=
  if s.warp.level = .firmware then (s.nestedFault t).endIssue (.trapped t)
  else
    let user : Bool := s.warp.level == .user
    let out : State := match t with
      | .miss va agent access =>
        let id := s.nextId
        let s := s.raiseFault s.ctx.id s.core.id s.warp.wslot agent 0 access va (some (.split s.warp.key s.issue.sp))
        let w := s.warp.replay s.issue.sp
        { s with warp := w.setSplit s.issue.sp { w.splitAt s.issue.sp with wait := some (.service id) } }
      | .undersized => { s with warp := s.warp.replay s.issue.sp }
      | .signature =>
        if s.split.mism then
          let s := s.logError 2 s.warp.wslot s.core.id s.ctx.id 0xFFFF 0
          if user then s.loseWarp else s.escalate s.core.id
        else
          let s := s.logError 1 s.warp.wslot s.core.id s.ctx.id 0xFFFF 0
          { s with warp := (s.warp.setSplit s.issue.sp { s.split with mism := true }).replay s.issue.sp }
      | .poison tile row =>
        let s := s.logError 6 s.warp.wslot s.core.id s.ctx.id tile row
        if user then s.loseWarp else s.escalate s.core.id
      | .user _ => if user then s.recordTrap t s.nextPacket else s.escalate s.core.id
      | .brk _ => if user then s.recordTrap t s.nextPacket else s.escalate s.core.id
      | .protect va agent kind access =>
        if user then s.recordTrap t s.issue.pkt
        else (s.raiseFault s.ctx.id s.core.id s.warp.wslot agent kind access va none).escalate s.core.id
      | .illegal 10 _ => if user then s.recordTransfer t else s.escalate s.core.id
      | t => if user then s.recordTrap t s.issue.pkt else s.escalate s.core.id
    out.endIssue (.trapped t)

/-- A trap or fault of the sequencer of a block (R60, R168, R334): it stops at its word, and the record is fatal but for
the first-use trap. -/
def seqTrap (t : Trap) (s : State) : State :=
  let key : WKey := ⟨s.blk.core, s.blk.slot, 0⟩
  let s := if s.ctx.halted then s else s.raiseRecord s.blk s.ctx.id key 0 0xFF true t s.blk.seq.pc s.blk.seq.pc
  ({ s with blk := { s.blk with seq := { s.blk.seq with stopped := true } } }).endIssue (.trapped t)

/-! ## Waiting -/

/-- The name of the loaded warp follows a wait of its owner (R277); a handler's warp owns none. -/
def State.nameWaits (s : State) (w : Wait) (parked : Bool) : State :=
  if w.isPark && s.warp.level = .user then s.parkName s.warp.name parked else s

/-- The split waits (R210); a waiting owner's name is PARKED (R277). -/
def parkOn (w : Wait) (s : State) : State :=
  let s := s.nameWaits w true
  (s.setSplit { s.split with wait := some w }).endIssue (.waiting w)

/-- The wait of the issuing split is over. -/
def State.unpark (s : State) : State :=
  match s.split.wait with
  | none => s
  | some w => let s := s.nameWaits w false
    s.setSplit { s.split with wait := none }

/-! ## The outcome of a word that may trap or wait -/

/-- A word that completes clears the prefix latch; a trap is taken and a wait is recorded on the state before it. -/
def finish (s : State) (r : Res State) : Host.Outcome State Fault Refusal :=
  match r with
  | .ok t => done t
  | .error (.trap t) => .next (takeTrap t s)
  | .error (.wait w) => .next (parkOn w s)

/-- A privileged word has its effect at firmware level and raises cause 2 at user level (R58, R194). -/
def privileged (s : State) (k : Host.Outcome State Fault Refusal) : Host.Outcome State Fault Refusal :=
  if s.warp.level = .firmware then k else .next (takeTrap (.illegal 2 s.issue.slot) s)

/-- As `finish`, for a word of the sequencer. -/
def finishSeq (s : State) (r : Res State) : Host.Outcome State Fault Refusal :=
  match r with
  | .ok t => done t
  | .error (.trap t) => .next (seqTrap t s)
  | .error (.wait w) => .next (s.endIssue (.waiting w))

end Sys2Proof.Machine
end

