-- ==== Sys2Proof/Machine/SpecialRegs.lean ====
section
/-!
DEFINITION. Special registers: `srd`, `swr` (R79, R80), `psrd`, `pswr` (R203), over the map of R20 and the delays of R21.
Every number and form was checked before the packet (R58).
-/
namespace Sys2Proof.Machine

/-- `wdepth`: the link entries on chip (R215). -/
def Warp.wdepth (w : Warp) : Nat := (w.links.filter fun l => !l.out).length

/-- The value of a special register for the issuing split (R20). The handler warp reads 0 as `warp` and `name` (R335), as `ctx` the slot
of the context that it serves, and has a `waitshare` of its own (R203, assumption 80). -/
def State.special (s : State) (n : Nat) : DWord :=
  match n with
  | 0x01 => BitVec.ofNat 64 s.warp.key.rank
  | 0x02 => BitVec.ofNat 64 s.issue.sp
  | 0x03 => BitVec.ofNat 64 s.core.id
  | 0x04 => BitVec.ofNat 64 (s.fab.clusterOf s.core.id)
  | 0x05 => BitVec.ofNat 64 (s.fab.csize (s.fab.clusterOf s.core.id))
  | 0x06 => BitVec.ofNat 64 ((s.fab.map[s.core.id]?.getD 0) / 36)
  | 0x07 => BitVec.ofNat 64 (if s.blk.slot < 4 then s.blk.slot else ((s.warp.served.map (·.key.slot)).getD 0) % 4)
  | 0x08 => s.warp.name
  | 0x09 => s.split.sig.setWidth 64
  | 0x0A => s.split.region
  | 0x0B => BitVec.ofNat 64 s.warp.wbase
  | 0x0C => BitVec.ofNat 64 s.warp.wdepth
  | 0x0D => BitVec.ofNat 64 s.warp.wlimit
  | 0x0E => s.core.accown.setWidth 64
  | 0x0F => BitVec.ofNat 64 (if s.blk.slot < 4 then s.blk.waitshare else s.warp.hshare)
  | 0x10 => BitVec.ofNat 64 s.ns
  | 0x11 => s.warp.nfault.setWidth 64
  | 0x12 => s.warp.ncont
  | 0x14 => s.warp.readQ 0
  | 0x15 => s.warp.readQ 1
  | 0x16 => s.warp.readQ 2
  | 0x17 => s.warp.readQ 3
  | _ => 0

/-- A write that takes effect for the next run of the split (R21). -/
def State.putLate (s : State) (n : Nat) (v : DWord) : State := s.setSplit { s.split with late := s.split.late ++ [(n, v)] }

/-- A modulo register, seen from the next chain (R80). -/
def State.putQ (s : State) (n : Nat) (v : DWord) : State :=
  s.put latU (.q n) allLanes (Vector.ofFn fun i => if i.val = 0 then v.setWidth 32 else (v >>> 32).setWidth 32)

/-- A write to a special register (R20, R21, R80). `time` never goes backwards (R21, assumption 7). A `waitshare` of 65 to 127 is kept as
written (assumption 80). -/
def State.putSpecial (s : State) (n : Nat) (v : DWord) : State :=
  match n with
  | 0x08 => { s with warp := { s.warp with name := v } }
  | 0x09 => s.putLate 0x09 v
  | 0x0A => s.putLate 0x0A v
  | 0x0B => s.putLate 0x0B v
  | 0x0C => s.putLate 0x0C v
  | 0x0D => { s with warp := { s.warp with wlimit := v.toNat % 2 ^ 32 } }
  | 0x0E => { s with core := { s.core with accown := v.setWidth 3, accBusy := false } }
  | 0x0F => if s.blk.slot < 4 then { s with blk := { s.blk with waitshare := v.toNat % 128 } } else { s with warp := { s.warp with hshare := v.toNat % 128 } }
  | 0x10 => { s with time19 := Nat.max s.time19 (v.toNat * 19) }
  | 0x11 => { s with warp := { s.warp with nfault := v.setWidth 8 } }
  | 0x12 => { s with warp := { s.warp with ncont := v } }
  | 0x14 => s.putQ 0 v
  | 0x15 => s.putQ 1 v
  | 0x16 => s.putQ 2 v
  | 0x17 => s.putQ 3 v
  | _ => s

/-- `accown` names a new owner: that slot's block is no longer FRESH (R293). -/
def State.ownFresh (s : State) (n : Nat) (v : DWord) : State :=
  if n = 0x0E && v.getLsbD 2 then
    s.onBlk s.core.id (v.toNat % 4) fun b => { b with fresh := false }
  else s

/-- A write to `wbase` or `wdepth` waits for the racking transfer in flight (R21). -/
def State.rackFree (s : State) (n : Nat) : Bool := (s.warp.rack.isNone && s.warp.rackNext.isNone) || !(n = 0x0B || n = 0x0C)

def execSrd (d r : BitVec 7) (s : State) : Host.Outcome State Fault Refusal :=
  done (s.putU latVar d.toNat ((s.special r.toNat).setWidth 32))

def execSrdD (d r : BitVec 7) (s : State) : Host.Outcome State Fault Refusal :=
  done (s.putUD latVar d.toNat (s.special r.toNat))

def execSrdV (v : BitVec 7) (s : State) : Host.Outcome State Fault Refusal :=
  done (s.put latVar (s.warp.vdest v.toNat) s.active0 (Vector.ofFn fun i => BitVec.ofNat 32 i.val))

def execSwr (r a : BitVec 7) (s : State) : Host.Outcome State Fault Refusal :=
  done (s.putSpecial r.toNat ((s.U a.toNat).setWidth 64))

def execSwrD (r a : BitVec 7) (s : State) : Host.Outcome State Fault Refusal :=
  done (s.putSpecial r.toNat (s.UD a.toNat))

def execPsrd (d r : BitVec 7) (s : State) : Host.Outcome State Fault Refusal :=
  privileged s (done (s.putU latVar d.toNat ((s.special r.toNat).setWidth 32)))

def execPsrdD (d r : BitVec 7) (s : State) : Host.Outcome State Fault Refusal :=
  privileged s (done (s.putUD latVar d.toNat (s.special r.toNat)))

def execPswr (r a : BitVec 7) (s : State) : Host.Outcome State Fault Refusal :=
  let v : DWord := (s.U a.toNat).setWidth 64
  privileged s (if s.rackFree r.toNat then done ((s.putSpecial r.toNat v).ownFresh r.toNat v) else .next (parkOn .retry s))

def execPswrD (r a : BitVec 7) (s : State) : Host.Outcome State Fault Refusal :=
  privileged s (done (s.putSpecial r.toNat (s.UD a.toNat)))

end Sys2Proof.Machine
end

