-- ==== Sys2Proof/Machine/Memory.lean ====
section
/-!
DEFINITION. Loads and stores, gathers and scatters, vector atomics, cellar operations, fences and accumulator transfers:
majors 0x24 to 0x2D (R106 to R126, R225, R229, R235 to R237).
-/
namespace Sys2Proof.Machine

/-! ## Engine operations and their counters (R19, R239) -/

/-- The counter of a class: the warp's operations issued and not retired. -/
def State.counter (s : State) (k : WKey) (c : CClass) : Nat := (s.ops.filter fun o => o.key = k && o.cls = c).length

/-- A gather keeps, where a copy has its byte offset, the split that issued it. -/
def EngKind.split (k : EngKind) (sp : Nat) : Nat :=
  match k with
  | .gather .. => sp
  | _ => 0

/-- An operation issued by the warp; a counter that would pass 63 stalls the split (R19). -/
def State.issueOp (s : State) (c : CClass) (kind : EngKind) (cmd : Vector Word 4) : Res State := do
  waitFor (c = .none || decide (s.counter s.warp.key c < 63)) .retry
  .ok { s with nextId := s.nextId + 1, ops := s.ops ++ [⟨s.nextId, s.warp.key, s.ctx.id, s.warp.wslot, s.warp.level, c, kind, cmd, false, false, kind.split s.issue.sp, [], none, s.issue.pkt⟩] }

def noCmd : Vector Word 4 := Vector.replicate 4 0

/-! ## Lane addresses -/

/-- Every lane of a mask with its place, all checked before any access: the lowest lane's fault is taken (R109, assumption 93). -/
def placesOf (s : State) (a : Access) (sz : Nat) (addr : Nat → DWord) : List (Fin 32) → Res (List (Nat × Place))
  | [] => .ok []
  | l :: r => do
    let p ← place s a (addr l.val) sz
    let ps ← placesOf s a sz addr r
    .ok ((l.val, p) :: ps)

def Place.inScratch : Place → Bool
  | .scratch .. => true
  | _ => false

/-- A full-empty qualifier needs addresses of the scratchpad window in every lane, before any translation: the lowest other lane's
address faults (R112, assumption 93). -/
def needScratch (q : Bool) (addr : Nat → DWord) (ls : List (Fin 32)) : Res Unit :=
  match ls.find? fun l => q && !inScratchWindow (addr l.val) with
  | some l => .error (.trap (.address (addr l.val)))
  | none => .ok ()

/-- The reserve has room for every frozen granule that a write to some places meets (R347). -/
def State.writable (s : State) (ps : List (Nat × Place)) : Bool :=
  s.reserveRoom (ps.filterMap fun p => match p.2 with | .mem pa _ => some (pa / 4096) | _ => none)

/-- The value of sz bytes at a place. -/
def State.valueAt (s : State) (p : Place) (sz : Nat) : Nat := leNat (s.readPlace p sz)

/-- Lane values, 0 for the lanes not listed. -/
def laneVec (xs : List (Nat × Nat)) : VReg :=
  Vector.ofFn fun i => BitVec.ofNat 32 (((xs.find? fun x => x.1 = i.val).map (·.2)).getD 0)

/-- The post-increment of the base pair (R108), which is no request to memory. -/
def State.bumpBase (s : State) (p : BitVec 6) (nb : Option DWord) : State :=
  match nb with
  | some b =>
    let t := s.putUD latVar (2 * p.toNat) b
    { t with warp := { t.warp with pend := t.warp.pend.map fun x => if x.id = s.nextId then { x with mem := false } else x } }
  | none => s

/-- A modulo register with LEN 0 (R111). -/
def needLen (s : State) (m : BitVec 2) (i : BitVec 4) : Res Unit :=
  need (m != 2 || qLen (s.warp.readQ (i.toNat / 4)) != 0) (.illegal 4 s.issue.slot)

/-! ## Loads -/

/-- The index vector of a `vgld`, for its queue entry's descriptor (R288). -/
def State.loadIndex (s : State) : VReg :=
  match decodeWord s.issue.word with
  | .ok (.vgld ..) => s.V s.pfx.v.toNat
  | _ => zeroVec

/-- The queue entry of the issuing load. -/
def State.dqEntry (s : State) (b : DWord) (v : VReg) : DqEntry :=
  ⟨s.nextId, s.issue.sp, false, v, s.issue.word, if s.issue.pfx.isSome then s.issue.pword else 0, s.E, b, s.loadIndex, false⟩

/-- Where a load goes: a data queue (R113), or the registers `d`. -/
def State.putLoad (s : State) (dq : Bool) (n : Nat) (b : DWord) (xs : List (Nat × Nat)) (wide : Bool) : State :=
  let lo := laneVec xs
  let hi := laneVec (xs.map fun x => (x.1, x.2 / 2 ^ 32))
  if dq then { s with nextId := s.nextId + 1, warp := s.warp.pushDq (n % 4) (s.dqEntry b lo) }
  else if wide then s.putV2 latVar n lo hi
  else s.putV latVar n lo

/-- `sld` to its uniform register or pair, or all lanes of a queue entry (R110, R113). -/
def State.putLoadU (s : State) (dq : Bool) (n : Nat) (b : DWord) (x : Nat) (wide : Bool) : State :=
  if dq then s.putLoad true n b ((List.range 32).map fun l => (l, x)) false
  else if wide then s.putUD latVar n (BitVec.ofNat 64 x)
  else s.putU latVar n (BitVec.ofNat 32 x)

/-- The granules and offsets of a full-empty load. -/
def feCells (ps : List (Nat × Place)) : List (Nat × Nat × Nat × Nat) :=
  ps.filterMap fun p => match p.2 with | .scratch c x o => some (p.1, c, x, o) | _ => none

/-- A `.fe` or `.fec` load reads when its granules are full: LOAD_DATA_ARRIVAL performs it (R112). `off` of
the operation is the split that issued it, and its lanes are those whose later accesses it holds back (R245). -/
def feOp (s : State) (cls : CClass) (sz : Nat) (clear : Bool) (pid : Nat) (ps : List (Nat × Place)) : Res State := do
  waitFor (cls = .none || decide (s.counter s.warp.key cls < 63)) .retry
  .ok { s with
    nextId := s.nextId + 1
    ops := s.ops ++ [⟨s.nextId, s.warp.key, s.ctx.id, s.warp.wslot, s.warp.level, cls, .feload sz clear pid (feCells ps) s.active0, noCmd, false, false, s.issue.sp, [], none, s.issue.pkt⟩] }

/-- A load of the lanes' values by `vld`, or by `vgld`, whose engine reads them later (R115, R245). -/
def loadLanes (s : State) (cls : CClass) (v : BitVec 6) (z q : BitVec 2) (b : DWord) (ps : List (Nat × Place)) : Res State := do
  let sz := memSize z
  let fe := q = 1 || q = 2
  let later := fe || cls != .none
  need (later || ps.all fun p => !s.poisoned p.2 sz) (.poison 0xFFFF 0)
  let xs := if later then [] else ps.map fun p => (p.1, s.valueAt p.2 sz)
  let pid := s.nextId
  let s := s.putLoad (q = 3) v.toNat b xs (z = 3)
  if ps.isEmpty then .ok s
  else if fe then feOp s cls sz (q = 2) pid ps
  else if cls = .none then .ok s
  else s.issueOp cls (.gather sz pid ps) noCmd

def execVld (v p : BitVec 6) (m z q : BitVec 2) (i : BitVec 4) (s : State) : Host.Outcome State Fault Refusal :=
  finish s do
    needLen s m i
    let b := s.UD (2 * p.toNat)
    needScratch (q = 1 || q = 2) (memAddr b m z i true) (lanesOf s.E)
    let ps ← placesOf s (progAccess s.warp.level true (q = 2) 0) (memSize z) (memAddr b m z i true) (lanesOf s.E)
    let t ← loadLanes s .none v z q b ps
    .ok (t.bumpBase p (memNewBase b m z i true s.warp.readQ))

def execSld (v p : BitVec 6) (m z q : BitVec 2) (i : BitVec 4) (s : State) : Host.Outcome State Fault Refusal :=
  finish s do
    needLen s m i
    let b := s.UD (2 * p.toNat)
    let sz := memSize z
    needScratch (q = 1 || q = 2) (memAddr b m z i false) [0]
    let pl ← place s (progAccess s.warp.level true (q = 2) 0) (memAddr b m z i false 0) sz
    let fe := q = 1 || q = 2
    need (fe || !s.poisoned pl sz) (.poison 0xFFFF 0)
    let pid := s.nextId
    let t := s.putLoadU (q = 3) v.toNat b (if fe then 0 else s.valueAt pl sz) (z = 3)
    let t ← if fe then feOp t .none sz (q = 2) pid [(0, pl)] else .ok t
    .ok (t.bumpBase p (memNewBase b m z i false s.warp.readQ))

/-! ## Full-empty loads that wait (R112, R245) -/

/-- A full-empty load of lanes of the split is held back: an acquire before their later accesses to memory, and before what they
release (R245, R247, assumption 95). -/
def State.feHeld (s : State) (w : Warp) (sp : Nat) : Bool :=
  s.ops.any fun o => o.key = w.key && !o.done && o.heldLoad && match o.kind with
    | .feload _ _ _ _ ls => ls &&& (w.splitAt sp).mask != 0
    | _ => false

/-- A load that a split waits for binds every lane of the split that those lanes have merged into (R245). -/
def State.spreadHolds (s : State) : State :=
  let grow (ls : Word) : Word :=
    s.warp.splits.toList.foldl (fun m p => if p.st != .free && m &&& p.mask != 0 then m ||| p.mask else m) ls
  { s with ops := s.ops.map fun o => match o.kind with
      | .feload sz cl pid cells ls => if o.key = s.warp.key && !o.done then { o with kind := .feload sz cl pid cells (grow ls) } else o
      | _ => o }

/-! ## Loads issued again after a restore (R15, R291) -/

/-- The values of a queue entry's load, read again by its descriptor (R288). -/
def DqEntry.reload (e : DqEntry) (s : State) : Res VReg := do
  let lanes (agent : Nat) (z : BitVec 2) (addr : Nat → DWord) (ls : List (Fin 32)) : Res (List (Nat × Nat)) := do
    let ps ← placesOf s (progAccess s.warp.level true false agent) (memSize z) addr ls
    need (ps.all fun p => !s.poisoned p.2 (memSize z)) (.poison 0xFFFF 0)
    .ok (ps.map fun p => (p.1, s.valueAt p.2 (memSize z)))
  match decodeWord e.word with
  | .ok (.vld _ _ m z _ i) => (lanes 0 z (memAddr e.base m z i true) (lanesOf e.mask)).map laneVec
  | .ok (.sld _ _ m z _ i) => (lanes 0 z (memAddr e.base m z i false) [0]).map fun xs => splat (laneVec xs)[0]
  | .ok (.vgld _ _ m z _ h) => (lanes 1 z (fun l => gatherAddr e.base (m = 1) h.toNat (e.index[l]?.getD 0)) (lanesOf e.mask)).map laneVec
  | _ => .ok e.val

/-- The first entry of some that has still to be issued again is; none where there is none. -/
def reissueFirst (s : State) : List DqEntry → Res (Option (List DqEntry))
  | [] => .ok none
  | e :: r =>
    if e.reissue then (e.reload s).map fun v => some ({ e with val := v, reissue := false } :: r)
    else (reissueFirst s r).map fun x => x.map (e :: ·)

/-- The next queue entry, in the recorded order, issued again. -/
def Warp.reissueNext (w : Warp) (s : State) : Nat → Res Warp
  | 0 => .ok w
  | n + 1 => do
    match ← reissueFirst s (w.dq[3 - n]?.getD []) with
    | some q => .ok { w with dq := w.dq.setIfInBounds (3 - n) q }
    | .none => w.reissueNext s n

/-- The warp has queue entries to issue again before its first chain. -/
def Warp.reissuing (w : Warp) : Bool := w.dq.toList.any fun q => q.any (·.reissue)

/-! ## Stores -/

/-- Lane values stored in increasing lane order, with what one store instruction does to poison and granules. -/
def State.storeLanes (s : State) (sz : Nat) (fs : Bool) (xs : List (Place × Nat)) : State :=
  let t := xs.foldl (fun s x => s.writePlace x.1 (leBytes sz x.2) (sz = 4)) s
  let t := t.clearCovered (xs.map fun x => (x.1, sz))
  if fs then xs.foldl (fun s x => match x.1.granule with | some g => s.setFull g true | none => s) t else t

/-- The value of a lane's source: a register, or a pair for 64 bits. -/
def State.laneSource (s : State) (n : Nat) (wide : Bool) (l : Nat) : Nat :=
  let lo := ((s.V n)[l]?.getD 0).toNat
  if wide then lo + ((s.V (n + 1))[l]?.getD 0).toNat * 2 ^ 32 else lo

def execVst (v p : BitVec 6) (m z q : BitVec 2) (i : BitVec 4) (s : State) : Host.Outcome State Fault Refusal :=
  finish s do
    needLen s m i
    let b := s.UD (2 * p.toNat)
    needScratch (q = 3) (memAddr b m z i true) (lanesOf s.E)
    let ps ← placesOf s (progAccess s.warp.level false true 0) (memSize z) (memAddr b m z i true) (lanesOf s.E)
    waitFor (s.writable ps) .retry
    let t := s.storeLanes (memSize z) (q = 3) (ps.map fun p => (p.2, s.laneSource v.toNat (z = 3) p.1))
    .ok (t.bumpBase p (memNewBase b m z i true s.warp.readQ))

def execSst (v p : BitVec 6) (m z q : BitVec 2) (i : BitVec 4) (s : State) : Host.Outcome State Fault Refusal :=
  finish s do
    needLen s m i
    let b := s.UD (2 * p.toNat)
    needScratch (q = 3) (memAddr b m z i false) [0]
    let pl ← place s (progAccess s.warp.level false true 0) (memAddr b m z i false 0) (memSize z)
    waitFor (s.writable [(0, pl)]) .retry
    let t := s.storeLanes (memSize z) (q = 3) [(pl, if z = 3 then (s.UD v.toNat).toNat else (s.U v.toNat).toNat)]
    .ok (t.bumpBase p (memNewBase b m z i false s.warp.readQ))

/-! ## Gather and scatter (R115) -/

/-- The lane addresses of an indexed access: base plus index, shifted (R115, R116). -/
def State.indexAddr (s : State) (b : DWord) (signed : Bool) (sh : Nat) (l : Nat) : DWord :=
  gatherAddr b signed sh ((s.V s.pfx.v.toNat)[l]?.getD 0)

def execVgld (v p : BitVec 6) (m : BitVec 1) (z q h : BitVec 2) (s : State) : Host.Outcome State Fault Refusal :=
  finish s do
    let b := s.UD (2 * p.toNat)
    needScratch (q = 1 || q = 2) (s.indexAddr b (m = 1) h.toNat) (lanesOf s.E)
    let ps ← placesOf s (progAccess s.warp.level true (q = 2) 1) (memSize z) (s.indexAddr b (m = 1) h.toNat) (lanesOf s.E)
    loadLanes s .gs v z q b ps

def execVgst (v p : BitVec 6) (m : BitVec 1) (z q h : BitVec 2) (s : State) : Host.Outcome State Fault Refusal :=
  finish s do
    let b := s.UD (2 * p.toNat)
    needScratch (q = 3) (s.indexAddr b (m = 1) h.toNat) (lanesOf s.E)
    let ps ← placesOf s (progAccess s.warp.level false true 1) (memSize z) (s.indexAddr b (m = 1) h.toNat) (lanesOf s.E)
    if ps.isEmpty then .ok s
    else s.issueOp .gs (.scatter (memSize z) (q = 3) (ps.map fun p => (p.2, s.laneSource v.toNat (z = 3) p.1))) noCmd

/-! ## Atomics (R116 to R118, R120) -/

/-- The new value of an atomic on n-bit integers (R117); `e` is the expected value of `.cas`. -/
def atomicInt {n : Nat} (op : Nat) (old d e : BitVec n) : BitVec n :=
  match op with
  | 0 => old + d
  | 1 => if old.slt d then old else d
  | 2 => if old.slt d then d else old
  | 3 => old &&& d
  | 4 => old ||| d
  | 5 => old ^^^ d
  | 6 => d
  | _ => if old = e then d else old

/-- The new value on FP32 words: the sum rounded to nearest-even, minimum and maximum as `vfmin` and `vfmax`. -/
def atomicF32 (op : Nat) (old d e : Word) : Word :=
  match op with
  | 0 => f32Add old d
  | 1 => BitVec.ofNat 32 (fmin fp32 old.toNat d.toNat)
  | 2 => BitVec.ofNat 32 (fmax fp32 old.toNat d.toNat)
  | _ => atomicInt op old d e

/-- The type T: 0 `.i32`, 1 `.i64`, 2 `.f32`. -/
def atomicNew (op ty old d e : Nat) : Nat :=
  if ty = 1 then (atomicInt op (BitVec.ofNat 64 old) (BitVec.ofNat 64 d) (BitVec.ofNat 64 e)).toNat
  else if ty = 2 then (atomicF32 op (BitVec.ofNat 32 old) (BitVec.ofNat 32 d) (BitVec.ofNat 32 e)).toNat
  else (atomicInt op (BitVec.ofNat 32 old) (BitVec.ofNat 32 d) (BitVec.ofNat 32 e)).toNat

/-- The operand of a lane, and what `.cas` expects. -/
def State.atomicArgs (s : State) (v op : Nat) (wide : Bool) (l : Nat) : Nat × Nat :=
  let x := s.laneSource v wide l
  if op = 7 then (s.laneSource (if wide then v + 2 else v + 1) wide l, x) else (x, 0)

/-- One atomic on one place: the new state and the old value. A write that changes nothing leaves a cellar line's state
(R235). -/
def State.atomicAt (s : State) (p : Place) (sz op ty d e : Nat) : State × Nat :=
  let old := s.valueAt p sz
  let new := atomicNew op ty old d e
  (if new = old then s else s.writePlace p (leBytes sz new) false, old)

/-- Lane by lane, in increasing order (R117): the old values. -/
def atomicLanes (sz op ty : Nat) (arg : Nat → Nat × Nat) : State → List (Nat × Place) → State × List (Nat × Nat)
  | s, [] => (s, [])
  | s, (l, p) :: r =>
    let (d, e) := arg l
    let (s, old) := s.atomicAt p sz op ty d e
    let (s, xs) := atomicLanes sz op ty arg s r
    (s, (l, old) :: xs)

def execVatom (v p : BitVec 6) (o : BitVec 3) (_r : BitVec 2) (_c : BitVec 3) (y : BitVec 2) (s : State) : Host.Outcome State Fault Refusal :=
  finish s do
    let b := s.UD (2 * p.toNat)
    let sz := if y = 1 then 8 else 4
    let ps ← placesOf s (progAccess s.warp.level true true 0) sz (s.indexAddr b false 0) (lanesOf s.E)
    need (ps.all fun p => !s.poisoned p.2 sz) (.poison 0xFFFF 0)
    waitFor (s.writable ps) .retry
    let (t, xs) := atomicLanes sz o.toNat y.toNat (s.atomicArgs v.toNat o.toNat (y = 1)) s ps
    .ok (t.putLoad false v.toNat b xs (y = 1))

/-! ## Cellar operations (R119 to R123) -/

/-- A place in the cellar window (R119). -/
def cellarAt (s : State) (sz : Nat) (va : DWord) : Res Place := do
  need (inCellarWindow va) (.address va)
  let p ← place s (progAccess s.warp.level true true 0) va sz
  match p with
  | .cellar _ => .ok p
  | _ => .error (.trap (.address va))

/-- Every lane with its place in the cellar window, all checked before any access: the lowest lane's fault is taken
(R109, R119, assumption 93). -/
def cellarPlaces (s : State) (sz : Nat) (addr : Nat → DWord) : List (Fin 32) → Res (List (Nat × Place))
  | [] => .ok []
  | l :: r => do
    let p ← cellarAt s sz (addr l.val)
    let ps ← cellarPlaces s sz addr r
    .ok ((l.val, p) :: ps)

def execCatom (v p : BitVec 6) (o : BitVec 3) (_r : BitVec 2) (n : BitVec 1) (y : BitVec 2) (s : State) : Host.Outcome State Fault Refusal :=
  finish s do
    let b := s.UD (2 * p.toNat)
    let sz := if y = 1 then 8 else 4
    let ps ← cellarPlaces s sz (s.indexAddr b false 0) (lanesOf s.E)
    need (n = 1 || ps.all fun p => !s.poisoned p.2 sz) (.poison 0xFFFF 0)
    let arg := s.atomicArgs v.toNat o.toNat (y = 1)
    if n = 0 then
      let (t, xs) := atomicLanes sz o.toNat y.toNat arg s ps
      .ok (t.putLoad false v.toNat b xs (y = 1))
    else if ps.isEmpty then .ok s
    else s.issueOp .cl (.catom sz o.toNat y.toNat (ps.map fun p => (p.2, arg p.1))) noCmd

/-- The line that a base names, aligned to `al` (R121, R122, R123). -/
def cellarLine (s : State) (b : DWord) (al : Nat) : Res Nat := do
  need (b.toNat % al == 0 && inCellarWindow b) (.address b)
  let p ← place s (progAccess s.warp.level true true 0) b al
  match p with
  | .cellar off => .ok off
  | _ => .error (.trap (.address b))

def execCfaddo (v p : BitVec 6) (k : BitVec 7) (s : State) : Host.Outcome State Fault Refusal :=
  finish s do
    let off ← cellarLine s (s.UD (2 * p.toNat)) 64
    if s.E = 0 then .ok s
    else s.issueOp .cl (.fold false (off / 64) (s.U k.toNat).toNat s.E (s.V v.toNat) false) noCmd

def execCabandon (p : BitVec 6) (k : BitVec 7) (s : State) : Host.Outcome State Fault Refusal :=
  finish s do
    let off ← cellarLine s (s.UD (2 * p.toNat)) 64
    if s.E = 0 then .ok s
    else s.issueOp .cl (.fold true (off / 64) (s.U k.toNat).toNat s.E zeroVec false) noCmd

/-- The element operation of a line operation (R119). -/
def lineOp (o : Nat) (x y : Word) : Word :=
  match o with
  | 0 => x + y
  | 1 => f32Add x y
  | 2 => if x.slt y then y else x
  | 3 => if x.ult y then y else x
  | 4 => BitVec.ofNat 32 (fmax fp32 x.toNat y.toNat)
  | _ => BitVec.ofInt 32 (max (-2 ^ 31) (min (2 ^ 31 - 1) (x.toInt + y.toInt)))

/-- One element of a line; an open cell and an element that does not change keep their line's state (R122, R235). -/
def State.lineElt (s : State) (o off : Nat) (y : Word) : State :=
  let old := BitVec.ofNat 32 (leNat (cellsRead s.cellar off 4))
  let new := lineOp o old y
  if new = old then s else s.writeLine off (leBytes 4 new.toNat) false

/-- The elements of a mask, at the bank (R122). -/
def State.lineElts (s : State) (o off : Nat) (mask : Word) (v : VReg) : State :=
  (lanesOf mask).foldl (fun t l => t.lineElt o (off + 4 * l.val) v[l]) s

def execCline (v p : BitVec 6) (o : BitVec 3) (s : State) : Host.Outcome State Fault Refusal :=
  finish s do
    let off ← cellarLine s (s.UD (2 * p.toNat)) 128
    if s.E = 0 then .ok s else s.issueOp .cl (.line o.toNat off s.E (s.V v.toNat)) noCmd

/-- `fence` (R124): the model performs every access but the engines' in program order, so the order it asks for already holds;
engine accesses do not wait for it. -/
def execFence (_o : BitVec 2) (_c : BitVec 3) (s : State) : Host.Outcome State Fault Refusal := done s

/-! ## Accumulator transfers (R125, R229, R293) -/

/-- A row of the store of a core. -/
def Core.accRow (c : Core) (tile row : Nat) : VReg := ((c.acc.find? fun r => r.1 = tile * 32 + row).map (·.2)).getD zeroVec

def Core.setAccRow (c : Core) (tile row : Nat) (v : VReg) : Core :=
  let rest := c.acc.filter fun r => r.1 != tile * 32 + row
  { c with acc := if v = zeroVec then rest else (tile * 32 + row, v) :: rest }

def Block.tile (b : Block) (n : Nat) : Tile := (b.tiles.find? fun t => t.n = n).getD ⟨n, false, 0, false⟩

def Block.setTile (b : Block) (t : Tile) : Block := { b with tiles := t :: b.tiles.filter fun x => x.n != t.n }

/-- The checks of an accumulator access by the loaded block (R16, R293). -/
def accCheck (s : State) (tile : Nat) : Res Unit := do
  need (tile < s.blk.acc) .resourceRange
  waitFor (!s.core.accBusy) .retry
  need (s.core.accown = BitVec.ofNat 3 (4 + s.blk.slot)) .accFirstUse

/-- `accrd`; a poisoned row is consumed under an empty E too (R125, assumption 96). -/
def execAccrd (v : BitVec 6) (l : BitVec 10) (r : BitVec 5) (s : State) : Host.Outcome State Fault Refusal :=
  finish s do
    accCheck s l.toNat
    need (!(s.blk.tile l.toNat).poison.getLsbD r.toNat) (.poison l.toNat r.toNat)
    let t := s.putV latVar v.toNat (s.core.accRow l.toNat r.toNat)
    if s.E = 0 then .ok t else t.issueOp .ax .accrd noCmd

def execAccwr (v : BitVec 6) (l : BitVec 10) (r : BitVec 5) (s : State) : Host.Outcome State Fault Refusal :=
  finish s do
    accCheck s l.toNat
    let row := blend s.E (s.V v.toNat) (s.core.accRow l.toNat r.toNat)
    let tl := s.blk.tile l.toNat
    let tl := if s.E = allLanes then { tl with poison := tl.poison &&& ~~~(1#32 <<< r.toNat) } else tl
    let t := { s with core := s.core.setAccRow l.toNat r.toNat row, blk := if s.E = 0 then s.blk else s.blk.setTile tl }
    if s.E = 0 then .ok t else t.issueOp .ax .accwr noCmd

end Sys2Proof.Machine
end

