-- ==== Sys2Proof/Machine/Flow.lean ====
section
/-!
DEFINITION. Control flow: majors 0x08 to 0x0B, 0x0D and 0x38 (R127 to R138, R193), division and merging of splits (R206
to R208), calls and the racking engine's part in them (R215, R219), and region marks (R220).
-/
namespace Sys2Proof.Machine

/-! ## Transfers -/

/-- The executing split goes on at a packet, in a new run (R56). -/
def State.jump (s : State) (pc : DWord) : State :=
  (s.setSplit { s.split with pc := pc, slot := 0, runLen := 0 }).endIssue .taken

/-- A transfer to an address that is no packet address raises cause 10 (R44, R53). -/
def needPacket (s : State) (pc : DWord) : Res Unit := need (pc.toNat % 12 == 0) (.illegal 10 s.issue.slot)

/-- The target of a BR word (R53): one below address 0 wraps and is no packet address. -/
def State.brTarget (s : State) (i : BitVec 16) : DWord := s.issue.pkt + 12 * i.signExtend 64

/-- A new region entry and its saved signature (R220); the mismatch count is cleared when the entry changes (R329). -/
def State.enterRegion (s : State) (p : Split) (pc : DWord) (saved : Word) : Split :=
  { p with region := pc, saved := saved, mism := p.mism && p.region == pc, mark := s.nextId, rmerge := none, rskip := false, spent := false }

/-! ## Divisions and merges (R128, R135, R206 to R208) -/

def Warp.freeRecords (w : Warp) : List Nat := (List.range 4).filter fun i => (w.splitAt i).st = .free

/-- New splits take the lowest free records; those that find none are deferred. -/
def Warp.placeSplits : Warp → List Split → Warp × List Split
  | w, [] => (w, [])
  | w, p :: r =>
    match w.freeRecords with
    | i :: _ => Warp.placeSplits (w.setSplit i p) r
    | [] => (w, p :: r)

/-- The executing split divides: the first arm keeps its record (R207). -/
def State.divide (s : State) (A : Word) (first : Split) (others : List Split) (merge : Option (DWord × Nat)) : State :=
  let w := s.warp.setSplit s.issue.sp first
  let (w, def') := w.placeSplits others
  { s with warp := { w with recon := ⟨A, 0, def', merge, s.issue.sp⟩ :: w.recon } }

/-- A signature with the folds of some words, newest first, undone (R220). -/
def unfoldAll (sig : Word) (ws : List Word) : Word := ws.foldl unfoldSig sig

/-- Where a split that stands after a chain goes on. -/
def Split.onward (p : Split) : Split := if p.slot ≥ 3 then { p with pc := p.pc + 12, slot := 0 } else p

/-- The records that stand at an entry. -/
def Warp.parkedAt (w : Warp) (e : Recon) : List Nat :=
  (List.range 4).filter fun i => (w.splitAt i).st = .atReconv && (w.splitAt i).mask &&& e.arrived != 0

/-- One entry looked at: popped when empty, a deferred split started in the record of the split that has arrived or left last, or
merged when all have arrived (R133, R135, R136, R207). The merge keeps the lowest record's stall count (assumption 81), and of writes to
`sig` that have not taken effect those of that record (assumption 78); a deferred `trap` of any of them is the merged split's (R193). -/
def Warp.settleEntry (w : Warp) (s : State) (e : Recon) : Except Trap (Warp × Option Recon) :=
  if e.pending = 0 then .ok (w, .none)
  else
    let waiting := e.deferred.filter fun d => d.st = .live
    let stowed := e.deferred.filter fun d => d.st != .live
    let wmask := waiting.foldl (fun m d => m ||| d.mask) 0#32
    let recs := w.parkedAt e
    match waiting with
    | d :: rest =>
      if e.pending &&& ~~~wmask &&& ~~~e.arrived != 0 then .ok (w, some e)
      else
        if recs.contains e.home then .ok (w.setSplit e.home d, some { e with deferred := rest ++ stowed ++ [w.splitAt e.home] })
        else if w.freeRecords.contains e.home then .ok (w.setSplit e.home d, some { e with deferred := rest ++ stowed })
        else
          match recs, w.freeRecords with
          | i :: _, _ => .ok (w.setSplit i d, some { e with deferred := rest ++ stowed ++ [w.splitAt i] })
          | [], i :: _ => .ok (w.setSplit i d, some { e with deferred := rest ++ stowed })
          | [], [] => .ok (w, some e)
    | [] =>
      if e.pending &&& ~~~e.arrived != 0 then .ok (w, some e)
      else
        let ps := recs.map w.splitAt ++ stowed
        match ps with
        | [] => .ok (w, .none)
        | p :: _ =>
          if ps.any fun x => x.pc != p.pc || x.slot != p.slot then .error .barrierDivergence
          else
            let sig := ps.foldl (fun a x => a ^^^ x.sig) 0 ^^^ (ps.foldl (fun a x => a ||| x.mask) 0 ^^^ e.pending)
            let q := s.enterRegion { p with st := .live, mask := e.pending, sig := sig, runLen := 0, wait := .none } p.pc (unfoldAll sig p.folded)
            let q := { q with presig := unfoldAll sig p.folded, ptrap := ps.findSome? fun (x : Split) => x.ptrap, rmerge := if p.slot = 0 then .none else some (p.pc, p.slot) }
            let w := recs.foldl (fun w i => w.setSplit i Split.none) w
            let i := match recs, w.freeRecords with | i :: _, _ => i | [], i :: _ => i | [], [] => 0
            .ok (w.setSplit i q.onward, .none)

/-- Every entry, innermost first. -/
def Warp.settleRecon (w : Warp) (s : State) : List Recon → Except Trap (Warp × List Recon)
  | [] => .ok (w, [])
  | e :: r => do
    let (w, e') ← w.settleEntry s e
    let (w, r') ← Warp.settleRecon w s r
    .ok (w, (match e' with | some x => [x] | .none => []) ++ r')

/-- The reconvergence stack settled after a change. -/
def State.reconverge (s : State) : Res State :=
  match s.warp.settleRecon s s.warp.recon with
  | .ok (w, r) => .ok ({ s with warp := { w with recon := r } } : State).spreadHolds
  | .error t => .error (.trap t)

/-- Lanes of the split in a record leave the pending masks of the n innermost entries that hold them. -/
def dropPending (m : Word) (sp : Nat) : Nat → List Recon → List Recon
  | _, [] => []
  | 0, r => r
  | n + 1, e :: r =>
    if e.pending &&& m = 0 then e :: dropPending m sp (n + 1) r
    else { e with pending := e.pending &&& ~~~m, home := sp } :: dropPending m sp n r

/-! ## Branches (R127, R128) -/

def branchIf (s : State) (c : Bool) (i : BitVec 16) : Host.Outcome State Fault Refusal :=
  finish s do
    needPacket s (if c then s.brTarget i else 0)
    .ok (if c then s.jump (s.brTarget i) else s)

def execBra (p : BitVec 3) (i : BitVec 16) (s : State) : Host.Outcome State Fault Refusal := branchIf s (s.P p.toNat) i
def execBraNot (p : BitVec 3) (i : BitVec 16) (s : State) : Host.Outcome State Fault Refusal := branchIf s (!s.P p.toNat) i
def execBrcAny (m : BitVec 3) (i : BitVec 16) (s : State) : Host.Outcome State Fault Refusal :=
  branchIf s (s.M m.toNat &&& s.active0 != 0) i
def execBrcAll (m : BitVec 3) (i : BitVec 16) (s : State) : Host.Outcome State Fault Refusal :=
  branchIf s (s.M m.toNat &&& s.active0 == s.active0) i
def execBrcNone (m : BitVec 3) (i : BitVec 16) (s : State) : Host.Outcome State Fault Refusal :=
  branchIf s (s.M m.toNat &&& s.active0 == 0) i

/-- `vbra`: the lanes of T go to the label, those of N to the next packet (R128). The stall of the chain binds T, which is the same
split; N may issue from the next cycle on (R47, assumption 81). -/
def vbraBy (s : State) (T : Word) (i : BitVec 16) : Host.Outcome State Fault Refusal :=
  let A := s.active0
  let N := A &&& ~~~T
  if T = 0 then done s
  else
    finish s do
      needPacket s (s.brTarget i)
      if N = 0 then .ok (s.jump (s.brTarget i))
      else
      need (s.warp.recon.length < 32) .reconvOverflow
      let p := s.split
      let sig := p.sig ^^^ (T ^^^ N ^^^ A)
      let fresh : Split := { p with sig := sig, slot := 0, runLen := 0, nextIssue := s.clock + 1, stamp := s.clock, lost := 0, lastWin := 0, ptrap := none }
      .ok ((s.divide A { p with mask := T, sig := sig, pc := s.brTarget i, slot := 0, runLen := 0 }
        [{ fresh with mask := N, pc := s.issue.pkt + 12 }] none).endIssue .taken)

def execVbra (m : BitVec 3) (i : BitVec 16) (s : State) : Host.Outcome State Fault Refusal :=
  vbraBy s (s.M m.toNat &&& s.active0) i
def execVbraNot (m : BitVec 3) (i : BitVec 16) (s : State) : Host.Outcome State Fault Refusal :=
  vbraBy s (s.active0 &&& ~~~(s.M m.toNat)) i

/-! ## Calls (R129, R131, R215, R219) -/

/-- The ring's occupancy, with the frame that a refill in flight is bringing back (R215). -/
def Warp.occupancy (w : Warp) : Nat :=
  48 + (w.links.filter fun l => !l.out).foldl (fun a l => a + l.k) 0 +
    (match w.rack with | some r => if !r.spill && r.own.isNone then r.k else 0 | .none => 0)

/-- A split waits at an `await` or at a second arrival, so it is parked at a barrier instruction (R140, R206). -/
def Split.atAwait (p : Split) : Bool :=
  p.st = .live && match p.wait with
    | some (.barrier ..) => true
    | some (.arriveWait ..) => true
    | _ => false

/-- The other live splits park behind the call (R219). One that waits at a barrier stays parked there, and goes on when the call has
returned and its wait is over (assumption 97). -/
def Warp.parkOthers (w : Warp) (sp : Nat) : Warp :=
  let others := (List.range 4).filter fun i => i != sp && (w.splitAt i).st = .live
  if others.isEmpty then w
  else
    let w' := others.foldl (fun w i => if (w.splitAt i).atAwait then w else w.setSplit i { w.splitAt i with st := .behindCall }) w
    { w' with callParks := ⟨w.links.length, w.wbase, (w.splitAt sp).mask, others⟩ :: w.callParks }

/-- The split stands behind a call of another one (R219). -/
def Warp.behind (w : Warp) (sp : Nat) : Bool := w.callParks.any fun c => c.who.contains sp

/-- A call to a target with slide K. A frame that another waiting call has spilled, or is spilling, is spilled again for it. -/
def doCall (s : State) (target : DWord) (k : Nat) : Res State := do
  needPacket s target
  let w := s.warp
  need (w.links.length + 1 ≤ w.wlimit) .windowOverflow
  let own := decide (k + 48 > w.w)
  waitFor (if own then w.rackDone = some s.issue.sp else decide (w.occupancy + k ≤ w.w)) (.callRoom k)
  let w := w.parkOthers s.issue.sp
  let w := { w with links := ⟨s.issue.pkt + 12, k, own⟩ :: w.links, wbase := (w.wbase + k) % w.w, rackDone := none, rack := w.rack.filter fun (x : Rack) => !x.spill || x.own.isNone }
  let s := { s with warp := w }
  let p := { s.enterRegion s.split target s.split.sig with pendCall := none }
  .ok ((s.setSplit p).jump target)

def execCall (k : BitVec 3) (i : BitVec 16) (s : State) : Host.Outcome State Fault Refusal :=
  finish s (doCall s (s.brTarget i) (8 * k.toNat))

/-- The distinct targets of the active lanes, in the order of their lowest lanes, with their lanes. -/
def calliTargets (s : State) (n : Nat) : List (DWord × Word) :=
  let ts := ((lanesOf s.active0).map fun l => s.VD n l).eraseDups
  ts.map fun t => (t, (lanesOf s.active0).foldl (fun m l => if s.VD n l = t then m ||| (1#32 <<< l.val) else m) 0#32)

def execCalli (n : BitVec 6) (k : BitVec 3) (s : State) : Host.Outcome State Fault Refusal :=
  finish s do
    match s.split.pendCall with
    | some t => doCall s t (8 * k.toNat)
    | none =>
      let ts := calliTargets s n.toNat
      need (ts.all fun t => t.1.toNat % 12 = 0) (.illegal 10 s.issue.slot)
      match ts with
      | [(t, _)] => doCall s t (8 * k.toNat)
      | [] => .ok s
      | (t, m) :: r =>
        need (s.warp.recon.length < 32) .reconvOverflow
        let p := { s.split with runLen := 0 }
        let arm (x : DWord × Word) : Split := { p with mask := x.2, pendCall := some x.1, nextIssue := s.clock + 1, stamp := s.clock, lost := 0, lastWin := 0, ptrap := none }
        .ok ((s.divide s.active0 { p with mask := m, pendCall := some t } (r.map arm)
          (some (s.issue.pkt + 12, s.warp.links.length))).endIssue .taken)

/-! ## The end of a split (R133, R219) -/

/-- Parked callers go on when no lane of the calling split is left in the callee (R219). -/
def Warp.dropCalls : Nat → Warp → Warp
  | 0, w => w
  | fuel + 1, w =>
    match w.callParks with
    | [] => w
    | c :: r =>
      let held := (List.range 4).foldl (fun m i => match (w.splitAt i).st with
        | .free => m
        | .behindCall => m
        | _ => m ||| (w.splitAt i).mask) 0#32
      let held := w.recon.foldl (fun m e => e.deferred.foldl (fun m d => m ||| d.mask) m) held
      if held &&& c.mask != 0 then w
      else
        let w := c.who.foldl (fun w i => w.setSplit i { w.splitAt i with st := .live }) w
        Warp.dropCalls fuel { w with
          rackDone := .none, callParks := r, links := w.links.drop (w.links.length - c.depth), wbase := c.wbase
          rack := w.rack.filter (fun (x : Rack) => x.depth ≤ c.depth), rackNext := w.rackNext.filter fun (x : Rack) => x.depth ≤ c.depth }

/-- No other split of the warp is left. -/
def Warp.lastSplitOf (w : Warp) (sp : Nat) : Bool :=
  ((List.range 4).all fun i => i = sp || (w.splitAt i).st = .free) && w.recon.all fun e => e.deferred.isEmpty

/-- The lanes of the executing split end. Its end is a release: it waits for the split's full-empty loads (R247), and the last one for all
of the warp's operations. -/
def exitLanes (s : State) : Res State := do
  if s.warp.lastSplitOf s.issue.sp then
    waitFor (s.ops.all fun o => o.key != s.warp.key) .retry
    let t := s.endWarp s.warp.key false
    .ok (t.endIssue .gone)
  else
    waitFor (!s.feHeld s.warp s.issue.sp) .retry
    need ((List.range 4).all fun i => (s.warp.splitAt i).st != .atBarrier && !(s.warp.splitAt i).atAwait) .barrierDivergence
    let m := s.active0
    let w := s.warp.setSplit s.issue.sp Split.none
    let s := { s with warp := { w with recon := dropPending m s.issue.sp w.recon.length w.recon } }
    let s ← s.reconverge
    .ok ({ s with warp := s.warp.dropCalls 32 }.endIssue .gone)

/-- `exit`; the exit of a handler ends the handler (R335). -/
def doExit (s : State) : Res State :=
  match s.warp.level with
  | .user => exitLanes s
  | .handler =>
    match s.returnHandler s.core.id false with
    | some t => .ok (t.endIssue .gone)
    | none => .error (.trap (.illegal 10 s.issue.slot))
  | .firmware =>
    match s.returnHandler s.core.id true with
    | some t => .ok (t.endIssue .gone)
    | none => .error (.trap (.illegal 10 s.issue.slot))

def execExit (s : State) : Host.Outcome State Fault Refusal := finish s (doExit s)

/-! ## Returns (R132, R215, R219, R131) -/

/-- The splits parked behind the call that is returned from are live again. -/
def Warp.unparkCall (w : Warp) : Warp :=
  match w.callParks with
  | c :: r =>
    if c.depth = w.links.length then
      { (c.who.foldl (fun w i => w.setSplit i { w.splitAt i with st := .live }) w) with callParks := r }
    else w
  | [] => w

/-- The innermost entry that holds lanes of a mask. -/
def innermost (m : Word) : List Recon → Option Recon
  | [] => none
  | e :: r => if e.pending &&& m = 0 then innermost m r else some e

/-- Lanes of the split in a record arrive at their innermost entry. -/
def arriveRecon (m : Word) (sp : Nat) : List Recon → List Recon
  | [] => []
  | e :: r => if e.pending &&& m = 0 then e :: arriveRecon m sp r else { e with arrived := e.arrived ||| m, home := sp } :: r

/-- The executing split, already where it will go on, parks at its innermost entry. -/
def State.arriveAt (s : State) : Res State :=
  let p := s.split
  let w := s.warp.setSplit s.issue.sp { p with st := .atReconv }
  ({ s with warp := { w with recon := arriveRecon p.mask s.issue.sp w.recon } }).reconverge

/-- `ret`. A transfer of the frame that it returns into is given up; the refill of its own spilled frame follows a transfer in flight
(R215, R216, assumption 38). -/
def doRet (s : State) : Res State :=
  match s.warp.links with
  | [] => doExit s
  | l :: r => do
    need (l.ret.toNat % 12 == 0) (.illegal 10 s.issue.slot)
    let w := s.warp
    let own := decide (l.k + 48 > w.w)
    waitFor (!l.out || own) .retFrame
    let refill : Option Rack := if l.out then some ⟨false, r.length + 1, l.k, 0, some s.issue.sp, none⟩ else none
    let flight := w.rack.filter fun (x : Rack) => x.depth ≤ r.length
    let w := { w with
      links := r, wbase := (w.wbase + w.w - l.k) % w.w, rackDone := none
      rack := flight.or refill, rackNext := if flight.isSome then refill.or w.rackNext else w.rackNext }
    let s := ({ s with warp := w.unparkCall }).jump l.ret
    let s := s.setSplit { s.enterRegion s.split l.ret s.split.sig with folded := [] }
    match innermost s.active0 s.warp.recon with
    | some e => if e.merge = some (l.ret, r.length) then s.arriveAt else .ok s
    | none => .ok s

def execRet (s : State) : Host.Outcome State Fault Refusal := finish s (doRet s)

/-! ## Region marks and reconvergence (R134 to R136, R149) -/

def execRegion (s : State) : Host.Outcome State Fault Refusal :=
  done (s.setSplit (s.enterRegion s.split s.issue.pkt s.split.presig))

def execLhead (s : State) : Host.Outcome State Fault Refusal :=
  done { s with warp := { s.warp with loopHead := s.issue.pkt } }

def execReconv (s : State) : Host.Outcome State Fault Refusal :=
  finish s do
    let p := s.split
    if p.rskip && p.rmerge = some (s.issue.pkt, s.issue.next) then .ok (s.setSplit { p with rskip := false })
    else
      match innermost p.mask s.warp.recon with
      | none => .ok s
      | some _ =>
        let t ← (s.setSplit { p with pc := s.issue.pkt, slot := s.issue.next, runLen := 0 }).arriveAt
        .ok (t.endIssue .taken)

def execLeave (n : BitVec 4) (s : State) : Host.Outcome State Fault Refusal :=
  finish s (({ s with warp := { s.warp with recon := dropPending s.active0 s.issue.sp n.toNat s.warp.recon } }).reconverge)

/-! ## Counters and signatures (R137, R138) -/

def classOf (c : BitVec 2) : CClass :=
  match c.toNat with
  | 0 => .cp
  | 1 => .gs
  | 2 => .cl
  | _ => .ax

def execWaitc (c : BitVec 2) (n : BitVec 6) (s : State) : Host.Outcome State Fault Refusal :=
  finish s do
    waitFor (s.counter s.warp.key (classOf c) ≤ n.toNat) .retry
    match s.warp.copyFault.find? fun f => f.cls = classOf c with
    | some f => .error (.trap (.engine f.va))
    | none => .ok s

/-- The comparison uses `sig` as folded so far (R138); a mismatch is the signature fault of R329. -/
def execSigck (i : BitVec 16) (s : State) : Host.Outcome State Fault Refusal :=
  finish s do
    need (sigCheck s.split.sig = i) .signature
    .ok (s.setSplit { s.split with sig := 0, folded := [] })

/-! ## User traps (R193) -/

/-- The trap is taken once the packet has taken effect; of two in one packet the first (assumption 82). -/
def afterPacket (t : Trap) (s : State) : Host.Outcome State Fault Refusal :=
  if s.split.ptrap.isSome then done s
  else if s.issue.next < 3 then done (s.setSplit { s.split with ptrap := some t })
  else .next (takeTrap t s)

def execTrap (i : BitVec 16) (s : State) : Host.Outcome State Fault Refusal := afterPacket (.user i) s

def execBrk (i : BitVec 16) (s : State) : Host.Outcome State Fault Refusal :=
  if s.ctx.debugging then afterPacket (.brk i) s else done s

def execNop (s : State) : Host.Outcome State Fault Refusal := done s

/-- A prefix latches its fields for the next word (R55). -/
def execPfx (m : BitVec 3) (z : BitVec 1) (r : BitVec 3) (v : BitVec 6) (u q : BitVec 3) (s : State) : Host.Outcome State Fault Refusal :=
  .next { s with issue := { s.issue with pfx := some ⟨m, z, r, v, u, q⟩, pword := s.issue.word } }

end Sys2Proof.Machine
end

