-- ==== Sys2Proof/Machine/Barrier.lean ====
section
/-!
DEFINITION. Barrier words: major 0x0C (R139 to R143, R241).
-/
namespace Sys2Proof.Machine

/-- Every live split stands at this barrier word, the executing one too: they merge into one, in the lowest record, with
its region entry here (R140, R206). Their `sig` values are those with this chain's words folded up to the barrier word;
the merged split folds them once more when its chain completes, so they are undone here (R220). `none` while one of the
splits still runs. -/
def Warp.gather (w : Warp) (s : State) (sp : Nat) : Except Trap (Option (Warp × Nat)) :=
  let p := w.splitAt sp
  let others := (List.range 4).filter fun i => i != sp && (w.splitAt i).st != .free && (w.splitAt i).st != .atReconv
  if others.isEmpty then .ok (some (w, sp))
  else if others.any fun i => (w.splitAt i).st = .behindCall || (w.splitAt i).atAwait then .error .barrierDivergence
  else if others.any fun i => (w.splitAt i).st = .atBarrier && ((w.splitAt i).pc != s.issue.pkt || (w.splitAt i).slot != s.issue.slot) then
    .error .barrierDivergence
  else if others.any fun i => (w.splitAt i).st = .live then .ok .none
  else
    let all := (List.range 4).filter fun i => i = sp || others.contains i
    let ws := (s.issue.chain.filter fun x => decide (x.1 ≤ s.issue.slot)).map (·.2)
    let merged := all.foldl (fun a i => a ^^^ ws.foldl foldSig (w.splitAt i).sig) 0#32
    let sig := unfoldAll merged ws.reverse
    let mask := all.foldl (fun a i => a ||| (w.splitAt i).mask) 0#32
    let saved := unfoldAll sig p.folded
    let q := { s.enterRegion { p with st := .live, mask := mask, sig := sig, wait := .none } s.issue.pkt saved with presig := saved }
    let w := all.foldl (fun w i => w.setSplit i Split.none) w
    let low := all.headD sp
    .ok (some (w.setSplit low q, low))

/-- The warp's arrival at a barrier is due: its splits are merged, or the executing one parks (R140). -/
inductive Gathered where
  | ready (s : State)
  | parked (s : State)

def gatherAt (s : State) (cluster : Bool) (n : Nat) : Res Gathered :=
  match s.warp.gather s s.issue.sp with
  | .error t => .error (.trap t)
  | .ok (some (w, sp)) => .ok (.ready { s with warp := w, issue := { s.issue with sp := sp } })
  | .ok .none =>
    let s := s.setSplit { s.split with st := .atBarrier, pc := s.issue.pkt, slot := s.issue.slot }
    .ok (.parked (parkOn (.barrierPark cluster n) s))

/-- The generation of a barrier now. -/
def State.genOf (s : State) (cluster : Bool) (n : Nat) : Word :=
  if cluster then (s.cbar s.ctx.id (s.fab.clusterOf s.core.id) n).gen
  else ((s.blk.barrier[n]?.map (·.gen))).getD 0

/-- The barrier is allocated and the warp belongs to it (R18, R140). -/
def memberCheck (s : State) (cluster : Bool) (n : Nat) : Res Unit :=
  if cluster then
    need (s.blk.clusterBars && (s.cbar s.ctx.id (s.fab.clusterOf s.core.id) n).mem.contains s.warp.key) .resourceRange
  else
    need (decide (n < s.blk.bars) && s.warp.level == .user &&
      (((s.blk.barrier[n]?.map (·.mem))).getD 0 &&& rankBit s.warp.key.rank != 0)) .resourceRange

/-- The warp has already arrived in the current generation. -/
def State.hasArrived (s : State) (cluster : Bool) (n : Nat) : Bool :=
  if cluster then (s.cbar s.ctx.id (s.fab.clusterOf s.core.id) n).arr.contains s.warp.key
  else ((s.blk.barrier[n]?.map (·.arr))).getD 0 &&& rankBit s.warp.key.rank != 0

/-- One arrival of the warp (R140, R241). -/
def State.arrival (s : State) (cluster : Bool) (n : Nat) : State :=
  let s := { s with warp := s.warp.arrivedAt cluster n (s.genOf cluster n) }
  if cluster then
    s.touchCbar s.ctx.id (s.fab.clusterOf s.core.id) n fun b => { b with arr := b.arr ++ [s.warp.key] }
  else
    s.touchBar s.blk.core s.blk.slot n fun b => { b with arr := b.arr ||| rankBit s.warp.key.rank }

/-- A second arrival in a generation, which waits for the next one (R140, R241). -/
def State.lateArrival (s : State) (cluster : Bool) (n : Nat) : State :=
  let g := s.genOf cluster n
  let s := if cluster then
      s.touchCbar s.ctx.id (s.fab.clusterOf s.core.id) n fun b => { b with wait := b.wait ++ [s.warp.key] }
    else s.touchBar s.blk.core s.blk.slot n fun b => { b with wait := b.wait ||| rankBit s.warp.key.rank }
  parkOn (.arriveWait cluster n g) s

/-- The warp's arrival that waited through a generation has counted since (R241). -/
def State.counted (s : State) (cluster : Bool) (n : Nat) (gen : Word) : Bool :=
  s.warp.lastArr.any fun a => a.1 = cluster && a.2.1 = n && a.2.2.1 != gen

/-- `arrive`: the checks, the merge of a diverged warp, and the arrival; an arrival that has waited counts already, unless the warp
is no member of its generation. -/
def arriveOp (s : State) (cluster : Bool) (n : Nat) : Res Gathered :=
  match s.split.wait with
  | some (.arriveWait _ _ g) =>
    if s.genOf cluster n = g then .error (.wait (.arriveWait cluster n g))
    else if s.counted cluster n g then .ok (.ready s) else .error (.trap .resourceRange)
  | _ => do
    memberCheck s cluster n
    match ← gatherAt s cluster n with
    | .parked t => .ok (.parked t)
    | .ready t => .ok (if t.hasArrived cluster n then .parked (t.lateArrival cluster n) else .ready (t.arrival cluster n))

def finishGathered (s : State) (r : Res Gathered) (k : State → Host.Outcome State Fault Refusal) : Host.Outcome State Fault Refusal :=
  match r with
  | .ok (.ready t) => k t
  | .ok (.parked t) => .next t
  | .error e => finish s (.error e)

/-- The wait of `await` (R140): the generation in which the warp last arrived. -/
def awaitOp (s : State) (cluster : Bool) (n p : Nat) : Res State :=
  match s.warp.lastArr.find? fun a => a.1 = cluster && a.2.1 = n with
  | none => .ok (s.putP latVar p false)
  | some (_, _, g, abn) =>
    if s.genOf cluster n != g then .ok (s.putP latVar p abn)
    else if (List.range 4).any fun i => (s.warp.splitAt i).st = .atBarrier then .error (.trap .barrierDivergence)
    else .error (.wait (.barrier cluster n g))

def execArrive (n : BitVec 4) (s : State) : Host.Outcome State Fault Refusal :=
  finishGathered s (arriveOp s false n.toNat) done

def execCbarrive (n : BitVec 2) (s : State) : Host.Outcome State Fault Refusal :=
  finishGathered s (arriveOp s true n.toNat) done

def execAwait (p : BitVec 3) (n : BitVec 4) (s : State) : Host.Outcome State Fault Refusal :=
  finish s do
    need (n.toNat < s.blk.bars) .resourceRange
    awaitOp s false n.toNat p.toNat

def execCbawait (p : BitVec 3) (n : BitVec 2) (s : State) : Host.Outcome State Fault Refusal :=
  finish s do
    need s.blk.clusterBars .resourceRange
    awaitOp s true n.toNat p.toNat

/-- `bsync`: `arrive`, then `await`; a split that has arrived and waits only awaits. -/
def execBsync (p : BitVec 3) (n : BitVec 4) (s : State) : Host.Outcome State Fault Refusal :=
  match s.split.wait with
  | some (.barrier false _ _) => finish s (awaitOp s false n.toNat p.toNat)
  | _ => finishGathered s (arriveOp s false n.toNat) fun t => finish t (awaitOp t false n.toNat p.toNat)

/-- `bmemb` (R141); exited warps and an ended sequencer are dropped. -/
def execBmemb (q : BitVec 1) (a : BitVec 7) (n : BitVec 4) (s : State) : Host.Outcome State Fault Refusal :=
  finish s do
    need (n.toNat < s.blk.bars) .resourceRange
    need ((s.U a.toNat).toNat < 2 ^ s.blk.nw) .resourceRange
    need (q = 0 || s.blk.seq.present) .resourceRange
    let gone := (s.allWarps.filter fun w => w.ofBlk s.blk.core s.blk.slot && w.exited).foldl (fun m w => m ||| rankBit w.key.rank) 0#32
    .ok (s.touchBar s.blk.core s.blk.slot n.toNat fun b =>
      { b with nmem := s.U a.toNat &&& ~~~gone, nmemSeq := decide (q = 1) && !s.blk.seq.ended })

end Sys2Proof.Machine
end

