-- ==== Sys2Proof/Machine/Work.lean ====
section
/-!
DEFINITION. Work: major 0x0E, job cards, deques, stealing and lane refill (R144 to R149, R222, R266 to R270).
-/
namespace Sys2Proof.Machine

/-! ## Cards (R145, R266) -/

/-- The chunk of R145; MIN, DIV and TAKERS of 0 act as 1. -/
def chunkOf (remain mn dv takers : Nat) : Nat :=
  let d := Nat.max 1 dv * Nat.max 1 takers
  Nat.min remain (Nat.max (Nat.max 1 mn) ((remain + d - 1) / d))

/-- A card's place: 64 bytes of memory space. -/
def cardPlace (s : State) (va : DWord) : Res Place := do
  let p ← place s (progAccess s.warp.level true true 0) va 64
  match p with
  | .mem .. => .ok p
  | _ => .error (.trap (.address va))

def Place.plus (p : Place) (n : Nat) : Place :=
  match p with
  | .mem pa k => .mem (pa + n) k
  | .scratch c x o => .scratch c x (o + n)
  | .cellar o => .cellar (o + n)

/-- A take from a card: first item, count, and the state after it; the take that empties the card signals its completion
name. A block being pre-empted takes nothing (R286). -/
def takeCard (s : State) (va : DWord) : Res (Nat × Nat × State) := do
  waitFor (!s.blk.draining) .retry
  let p ← cardPlace s va
  need (!s.poisoned p 64) (.poison 0xFFFF 0)
  waitFor (s.writable [(0, p)]) .retry
  let f (off n : Nat) : Nat := s.valueAt (p.plus off) n
  let remain := f 44 4
  let c := chunkOf remain (f 20 4) (f 24 4) (f 28 4)
  let first := f 40 4
  if c = 0 then .ok (first, 0, s)
  else
    let t := (s.writePlace (p.plus 40) (leBytes 4 (first + c)) false).writePlace (p.plus 44) (leBytes 4 (remain - c)) false
    let t := if remain = c then t.signalQuiet (BitVec.ofNat 64 (f 32 8)) (nameDomain s.warp.name) else t
    .ok (first, c, t)

/-- The item queue has room for a chunk (R222). -/
def itemRoom (q : List Word) (c : Nat) : Bool := decide (q.length + c ≤ 256)

/-- The items of a chunk enter the core's item queue. -/
def State.pushItems (s : State) (first c : Nat) : State :=
  { s with blk := { s.blk with items := s.blk.items ++ (List.range c).map fun i => BitVec.ofNat 32 (first + i) } }

/-- What a take fetches: a chunk of the card, or the chunk that a waiting take has fetched before (R222). -/
def State.fetchChunk (s : State) (va : DWord) : Res (Nat × Nat × State) :=
  match s.split.wait with
  | some (.items first c) => .ok (first, c, s)
  | _ => takeCard s va

/-- A take; one with `.q` waits with its chunk until the queue has room for it (R145, R222). -/
def execJtake (g : BitVec 7) (q : BitVec 1) (s : State) : Host.Outcome State Fault Refusal :=
  match s.fetchChunk (s.UD g.toNat) with
  | .error e => finish s (.error e)
  | .ok (first, c, t) =>
    if q = 1 && !itemRoom t.blk.items c then .next (parkOn (.items first c) t)
    else
      let t := if q = 1 then t.pushItems first c else t
      done (t.putUD latVar (g.toNat + 2) (BitVec.ofNat 32 c ++ BitVec.ofNat 32 first))

/-! ## Deques (R146, R147, R267) -/

/-- The place of a deque's header, in the block's own partition. -/
def dequePlace (s : State) (va : DWord) : Res Place := do
  let p ← place s (progAccess s.warp.level true true 0) va 16
  match p with
  | .scratch c x _ => do
    need (c = s.blk.core && x = s.blk.slot) (.address va)
    .ok p
  | _ => .error (.trap (.address va))

/-- The place of task i of a deque. -/
def taskPlace (s : State) (va : DWord) (i : Nat) : Res Place :=
  place s (progAccess s.warp.level true true 0) (va + BitVec.ofNat 64 (16 + 8 * i)) 8

/-- HANDED is 1, PUSHED 0, FULL 2 (R146). -/
def execJspawn (g : BitVec 7) (s : State) : Host.Outcome State Fault Refusal :=
  finish s do
    let va := s.UD g.toNat
    let h ← dequePlace s va
    let task := s.UD (g.toNat + 2)
    match s.core.mailbox.find? fun r => r.ctx = s.ctx.id with
    | some r =>
      let rest := s.core.mailbox.filter fun x => !(x = r)
      let t := { s with core := { s.core with mailbox := rest } }
      .ok ((t.onBlk r.core r.slot fun b => { b with inbox := some task, stealPosted := false }).putU latVar (g.toNat + 2) 1)
    | none =>
      need (!s.poisoned h 16) (.poison 0xFFFF 0)
      let count := s.valueAt h 4
      if count ≥ s.valueAt (h.plus 4) 4 then .ok (s.putU latVar (g.toNat + 2) 2)
      else
        let p ← taskPlace s va count
        let t := (s.writePlace p (leBytes 8 task.toNat) false).writePlace h (leBytes 4 (count + 1)) false
        .ok (t.putU latVar (g.toNat + 2) 0)

def execJpop (g : BitVec 7) (p : BitVec 3) (s : State) : Host.Outcome State Fault Refusal :=
  finish s do
    let va := s.UD g.toNat
    let h ← dequePlace s va
    match s.blk.inbox with
    | some t => .ok ((({ s with blk := { s.blk with inbox := none } }).putUD latVar (g.toNat + 2) t).putP latVar p.toNat true)
    | none =>
      need (!s.poisoned h 16) (.poison 0xFFFF 0)
      let count := s.valueAt h 4
      if count = 0 then .ok (s.putP latVar p.toNat false)
      else
        let pl ← taskPlace s va (count - 1)
        need (!s.poisoned pl 8) (.poison 0xFFFF 0)
        let t := s.writePlace h (leBytes 4 (count - 1)) false
        .ok ((t.putUD latVar (g.toNat + 2) (BitVec.ofNat 64 (s.valueAt pl 8))).putP latVar p.toNat true)

/-- `jsteal` (R148, R268). A victim whose block is saved, its core kept or not, holds no block there (assumption 83). -/
def execJsteal (g : BitVec 7) (s : State) : Host.Outcome State Fault Refusal :=
  let v := (s.U g.toNat).toNat
  let there := s.allBlks.any fun b => b.core = v && b.ctx = s.ctx.id && b.life = .resident
  if v > 639 || !there then done (s.putU latVar (g.toNat + 2) 2)
  else if (s.getCore v).mailbox.length ≥ 4 || s.blk.stealPosted || s.blk.inbox.isSome then done (s.putU latVar (g.toNat + 2) 1)
  else
    let c := s.getCore v
    let t := s.setCore { c with mailbox := c.mailbox ++ [⟨s.core.id, s.blk.slot, s.ctx.id⟩] }
    done (({ t with blk := { t.blk with stealPosted := true } }).putU latVar (g.toNat + 2) 0)

/-! ## Lane refill (R149) -/

/-- Items given to lanes in increasing order: the pairs, and the queue left. -/
def dealItems : List (Fin 32) → List Word → List (Nat × Nat) × List Word
  | [], q => ([], q)
  | _, [] => ([], [])
  | l :: r, i :: q =>
    let (xs, q) := dealItems r q
    ((l.val, i.toNat) :: xs, q)

/-- A chunk of the card is fetched where the queue does not serve every lane wanted, or was fetched before (R149, R222): the
chunk, or none. -/
def State.refillChunk (s : State) (short : Bool) : Res (Option (Nat × Nat) × State) :=
  match s.split.wait, short with
  | some (.items first c), _ => .ok (some (first, c), s)
  | _, false => .ok (none, s)
  | _, true => (takeCard s s.blk.card).map fun x => (some (x.1, x.2.1), x.2.2)

/-- The lanes' items and what follows from them, the chunk in the queue. A handler's warp whose last lanes exit here ends as at its `exit`
(R335, assumption 104). -/
def refillLanes (v m : Nat) (want : List (Fin 32)) (s : State) : Res State :=
  let mk := s.M m
  let (xs, q) := dealItems want s.blk.items
  let got := xs.foldl (fun a x => a ||| (1#32 <<< x.1)) 0#32
  let (t, b) := s.topItems { s.blk with items := q }
  let t := { t with blk := b }
  let left := mk &&& ~~~got
  if s.active0 &&& ~~~left = 0 then doExit t
  else
    let t := if got = 0 then t else t.put latVar (s.warp.vdest v) got (laneVec xs)
    .ok (t.putM latVar m left)

/-- `lrefill`. The loop-head check is made when its chain issues (assumption 84). Items in the queue are dealt first; the room for
a chunk is counted without them (R222). -/
def execLrefill (v : BitVec 6) (m : BitVec 3) (s : State) : Host.Outcome State Fault Refusal :=
  if s.warp.loopHead != s.issue.pkt then .next (takeTrap (.illegal 3 s.issue.slot) s)
  else
    let want := lanesOf (s.M m.toNat &&& s.active0)
    match s.refillChunk (decide (want.length > s.blk.items.length)) with
    | .error e => finish s (.error e)
    | .ok (none, t) => finish s (refillLanes v.toNat m.toNat want t)
    | .ok (some (first, c), t) =>
      if !itemRoom (t.blk.items.drop want.length) c then .next (parkOn (.items first c) t)
      else finish s (refillLanes v.toNat m.toNat want (t.pushItems first c))

end Sys2Proof.Machine
end

