-- ==== Sys2Proof/Machine/Copy.lean ====
section
/-!
DEFINITION. The copy engine and operand slots: majors 0x30 and 0x31 (R151, R153 to R165, R228). A command is checked and
counted when it issues; what it moves is moved by ENGINE_OP_COMPLETE.
-/
namespace Sys2Proof.Machine

/-- The command registers as they stand at issue (R151). -/
def State.cmd (s : State) (g : BitVec 7) : Vector Word 4 :=
  Vector.ofFn fun i => s.U (g.toNat + i.val)

/-- The address fault of a command value. -/
def needAddr (ok : Bool) (va : DWord) : Res Unit := need ok (.address va)

/-! ## `cpy` (R154) -/

def execCpy (g : BitVec 7) (d y : BitVec 1) (ss : BitVec 2) (s : State) : Host.Outcome State Fault Refusal :=
  finish s do
    let far := s.UD g.toNat
    let near := (s.U (g.toNat + 2)).toNat
    let shape := (s.U (g.toNat + 3)).toNat
    let va : DWord := (s.U (g.toNat + 2)).setWidth 64
    let rows := if y = 0 then 1 else shape / 2 ^ 22 + 1
    let rb := if y = 0 then shape else (shape / 2 ^ 11 % 2 ^ 11 + 1) * 16
    let stride := if y = 0 then 0 else shape % 2 ^ 11 * 16 * 4 ^ ss.toNat
    let off := near % 2 ^ 26
    let total := rows * rb
    let cellar := near / 2 ^ 30 = 1
    needAddr (addressOk s far 16) far
    needAddr (decide (near / 2 ^ 30 ≤ 1) && near / 2 ^ 26 % 16 == 0 && off % 16 == 0) va
    needAddr (y = 1 || (shape % 16 == 0 && decide (shape ≤ 2 ^ 24))) va
    needAddr (if cellar then decide (s.ctx.cbase ≤ off) && decide (off + total ≤ s.ctx.cbase + s.ctx.csize)
      else decide (off < 2 ^ 21) && decide (off + total ≤ s.blk.part)) va
    if total = 0 then .ok s
    else s.issueOp .cp (.cpy (d = 1) far.toNat off cellar rows rb stride) (s.cmd g)

/-! ## Slot records (R160, R162, R33) -/

def hdrFmt (h : Word) : Nat := h.toNat % 16
def hdrRot (h : Word) : Bool := h.getLsbD 4
def hdrSeed (h : Word) : Nat := h.toNat / 32 % 8
def hdrSwz (h : Word) : Nat := h.toNat / 256 % 4
def hdrK128 (h : Word) : Bool := h.getLsbD 10
def isMx (h : Word) : Bool := decide (4 ≤ hdrFmt h) && decide (hdrFmt h ≤ 8)

/-- Bytes of the image (R33, R160). -/
def imageBytes (h : Word) : Nat :=
  if hdrFmt h = 6 || hdrFmt h = 7 then 3072
  else if hdrFmt h = 11 then 1024
  else if hdrK128 h && (hdrFmt h = 9 || hdrFmt h = 10) then 4096
  else 2048

/-- Bits of an element of a format. -/
def fmtBits (f : Nat) : Nat :=
  if f ≤ 1 then 16 else if f = 6 || f = 7 then 6 else if f = 8 then 4 else if f = 11 then 2 else 8

/-- The K of an operand (R33). -/
def hdrK (h : Word) : Nat := imageBytes h / 32 * 8 / fmtBits (hdrFmt h)

/-- Bytes of the scale side: 16-bit scale words, one for each block of 32 of each row; none without MX. -/
def scaleBytes (h : Word) : Nat := if isMx h then 32 * (hdrK h / 32) * 2 else 0

def twoSlots (h : Word) : Bool := decide (imageBytes h > 2048)

/-- A record that breaks no rule of R160. The rule asks only for an even slot: one in the block's last slot, whose partner would lie at
`.slots`, breaks none (assumption 98). -/
def recordValid (slot : Nat) (h soff : Word) : Bool :=
  h.toNat / 2 ^ 24 = 0 && (h.toNat / 2 ^ 16 % 256 = if isMx h then 32 else 0) && h.toNat / 2 ^ 11 % 32 = 0 &&
    decide (hdrFmt h ≤ 11) && (!hdrK128 h || hdrFmt h = 9 || hdrFmt h = 10) && !(hdrRot h && decide (hdrFmt h ≥ 9)) &&
    (isMx h || soff = 0) && (!twoSlots h || slot % 2 = 0)

def Block.oslot (b : Block) (n : Nat) : OSlot :=
  (b.oslots.find? fun o => o.n = n).getD
    { n := n, claimed := false, hdr := 0, soff := 0, data := false, scale := false, stamp := .none, img := [], scl := [],
      badRows := 0, readers := 0, events := [] }

def Block.setOslot (b : Block) (o : OSlot) : Block := { b with oslots := o :: b.oslots.filter fun x => x.n != o.n }

def OSlot.filled (o : OSlot) : Bool := o.claimed && o.data && (!isMx o.hdr || o.scale)
def OSlot.valid (o : OSlot) : Bool := o.claimed && recordValid o.n o.hdr o.soff

/-- An odd slot that is the partner of a two-slot record (R228). -/
def Block.partner (b : Block) (n : Nat) : Bool := n % 2 = 1 && (b.oslot (n - 1)).claimed && twoSlots (b.oslot (n - 1)).hdr

/-- The operand that a slot names: its image goes on in the odd slot when it takes two (R32). -/
def Block.operand (b : Block) (n : Nat) : OSlot :=
  let o := b.oslot n
  if twoSlots o.hdr then { o with img := o.img ++ (b.oslot (n + 1)).img.map fun c => (2048 + c.1, c.2) } else o

/-- Bytes of an image written at an offset: from 2 KiB on they lie in the odd slot (R32). -/
def Block.writeImg (b : Block) (n off : Nat) (bs : List Byte) : Block :=
  if off < 2048 then
    let x := b.oslot n
    b.setOslot { x with img := cellsWrite x.img off bs }
  else
    let x := b.oslot (n + 1)
    b.setOslot { x with img := cellsWrite x.img (off - 2048) bs }

/-- `oclaim`'s effect (R161). -/
def OSlot.claim (o : OSlot) (h soff : Word) : OSlot :=
  { o with claimed := true, hdr := h, soff := soff, data := false, scale := false, stamp := none }

/-- A release's effect (R164, R228). -/
def OSlot.release (o : OSlot) (unclaim : Bool) : OSlot :=
  if !o.claimed then o
  else if unclaim then { o with claimed := false, hdr := 0, soff := 0, data := false, scale := false, stamp := none }
  else { o with data := false, scale := false, stamp := none }

/-- The slot that an operation fills. -/
def EngKind.fills : EngKind → Option Nat
  | .cpyo _ slot _ _ => some slot
  | .ofill slot _ _ _ _ _ => some slot
  | _ => none

/-- A warp's unfinished fill of a slot issued before number `id`. -/
def State.filling (s : State) (core bslot slot : Nat) (who : Option WKey) (id : Nat) : Bool :=
  match who with
  | none => false
  | some k => s.ops.any fun o => o.key = k && decide (o.id < id) && !o.done && !o.cancelled && o.kind.fills = some slot && k.core = core && k.slot = bslot

/-- A fill's stamp (R162). -/
def OSlot.stampBy (o : OSlot) (swz : Nat) : OSlot :=
  { o with stamp := match o.stamp with | none => some swz | some x => if x = swz then some x else some 4 }

/-- The completion bits that a fill clears at its issue (R162). -/
def OSlot.reopen (o : OSlot) (data scale : Bool) : OSlot := { o with data := o.data && !data, scale := o.scale && !scale }

def SlotEvent.id : SlotEvent → Nat
  | .claim i _ _ _ => i
  | .release i _ _ => i
  | .fill i _ _ _ _ => i

def SlotEvent.who : SlotEvent → Option WKey
  | .claim _ w _ _ => w
  | .release _ w _ => w
  | .fill _ w _ _ _ => w

/-- The effect of an event on the slot's state. -/
def OSlot.apply (o : OSlot) (e : SlotEvent) : OSlot :=
  match e with
  | .claim _ _ h f => o.claim h f
  | .release _ _ u => o.release u
  | .fill _ _ z d c => (o.reopen d c).stampBy z

/-- The slot once every event that waits has taken effect: what a command issued now acts on (R159). -/
def OSlot.ahead (o : OSlot) : OSlot := o.events.foldl OSlot.apply o

/-- An event that replaces the state of a record of two slots, or makes one (R160). -/
def SlotEvent.two (e : SlotEvent) (o : OSlot) : Bool :=
  o.n % 2 = 0 && ((o.claimed && twoSlots o.hdr) || match e with | .claim _ _ h _ => twoSlots h | _ => false)

/-- An event waits for the warp's earlier fills of the slot; a fill's own record does not (R162, R163). -/
def SlotEvent.isFill : SlotEvent → Bool
  | .fill .. => true
  | _ => false

/-- Deferred events of a slot take effect in issue order, once no mmac reads it or the slot beside it that its record takes in
(R228). -/
def State.runEvents (s : State) (core bslot : Nat) (b : Block) : Nat → OSlot → OSlot
  | 0, o => o
  | fuel + 1, o =>
    match o.events with
    | [] => o
    | e :: r =>
      if o.readers > 0 || (e.two o && (b.oslot (o.n + 1)).readers > 0) || (!e.isFill && s.filling core bslot o.n e.who e.id) then o
      else State.runEvents s core bslot b fuel ({ o with events := r }.apply e)

/-- The record of an odd slot that an even slot's record takes in is replaced by it (R160, R161). -/
def Block.joinPairs (b : Block) : Block :=
  { b with oslots := b.oslots.map fun o => if b.partner o.n then o.release true else o }

/-- The events of every slot of a block. -/
def State.settleSlots (s : State) (core bslot : Nat) : State :=
  s.onBlk core bslot fun b => ({ b with oslots := b.oslots.map fun o => s.runEvents core bslot b o.events.length o } : Block).joinPairs

/-- An event on a slot, at once or deferred. -/
def State.slotEvent (s : State) (slot : Nat) (e : SlotEvent) : State :=
  let o := s.blk.oslot slot
  let s := { s with nextId := s.nextId + 1, blk := s.blk.setOslot { o with events := o.events ++ [e] } }
  s.settleSlots s.blk.core s.blk.slot

/-- Slot numbers are checked against the block's allocation (R17), and an odd partner faults (R228). -/
def slotCheck (s : State) (slot : Nat) : Res Unit := do
  need (slot < s.blk.slots) .resourceRange
  need (!s.blk.partner slot) .operandFormat

/-- A fill command: its completion bits drop at once, its stamp is recorded in its turn, and its bytes follow (R162, R228). -/
def State.issueFill (s : State) (slot : Nat) (swz : Nat) (data scale : Bool) (kind : EngKind) (cmd : Vector Word 4) : Res State := do
  waitFor (decide (s.counter s.warp.key .cp < 63)) .retry
  let s : State := { s with blk := s.blk.setOslot ((s.blk.oslot slot).reopen data scale) }
  (s.slotEvent slot (.fill s.nextId (some s.warp.key) swz data scale)).issueOp .cp kind cmd

/-! ## Slot commands (R161, R163 to R165) -/

def execOclaim (g : BitVec 7) (s : State) : Host.Outcome State Fault Refusal :=
  finish s do
    let slot := (s.U g.toNat).toNat % 256
    slotCheck s slot
    .ok (s.slotEvent slot (.claim s.nextId (some s.warp.key) (s.U (g.toNat + 1)) (s.U (g.toNat + 2))))

def execOrel (g : BitVec 7) (u : BitVec 1) (s : State) : Host.Outcome State Fault Refusal :=
  finish s do
    let slot := (s.U g.toNat).toNat % 256
    need (slot < s.blk.slots) .resourceRange
    if s.blk.partner slot || !(s.blk.oslot slot).ahead.claimed then .ok s
    else .ok (s.slotEvent slot (.release s.nextId (some s.warp.key) (u = 1)))

/-- The status word of R165; [3:2] read 0 where the slot has no stamp or a mixed one (assumption 99). -/
def OSlot.status (o : OSlot) : Word :=
  BitVec.ofNat 32 (o.claimed.toNat + 2 * o.filled.toNat + 4 * (match o.stamp with | some x => x % 4 | none => 0) +
    16 * (if o.stamp = some 4 then 1 else 0) + 32 * (if o.readers > 0 then 1 else 0) + 64 * o.scale.toNat + 128 * o.valid.toNat)

/-- `ohdr`, after what its warp has done to the slot before (R159). -/
def execOhdr (g : BitVec 7) (s : State) : Host.Outcome State Fault Refusal :=
  finish s do
    let slot := (s.U g.toNat).toNat % 256
    slotCheck s slot
    let o := s.blk.oslot slot
    waitFor (!(o.events.any fun e => e.who = some s.warp.key) && !s.filling s.blk.core s.blk.slot slot (some s.warp.key) s.nextId) .retry
    let (h, f, st) := if o.claimed then (o.hdr, o.soff, o.status) else (0#32, 0#32, 0#32)
    .ok ((s.putU latVar (g.toNat + 1) h).putUD latVar (g.toNat + 2) (st ++ f))

def execOfill (g : BitVec 7) (v : BitVec 6) (s : State) : Host.Outcome State Fault Refusal :=
  finish s do
    let w := s.U g.toNat
    let slot := w.toNat % 256
    let c := w.toNat / 256 % 32
    let sc := w.getLsbD 13
    let fin := w.getLsbD 14
    slotCheck s slot
    let o := (s.blk.oslot slot).ahead
    need (o.valid && decide (128 * c + 128 ≤ if sc then scaleBytes o.hdr else imageBytes o.hdr)) .operandFormat
    s.issueFill slot 0 (!sc) sc (.ofill slot c sc fin s.active0 (s.V v.toNat)) (s.cmd g)

/-! ## `cpyo`, `cpyr`, `cpyp` (R156 to R158) -/

def execCpyo (g : BitVec 7) (s : State) : Host.Outcome State Fault Refusal :=
  finish s do
    let src := s.UD g.toNat
    let w := (s.U (g.toNat + 2)).toNat
    let st := (s.U (g.toNat + 3)).toNat
    needAddr (addressOk s src 16 && decide (w < 1024) && st % 16 == 0) src
    let slot := w % 256
    slotCheck s slot
    let o := (s.blk.oslot slot).ahead
    need o.valid .operandFormat
    s.issueFill slot (w / 256 % 4) true (isMx o.hdr) (.cpyo src.toNat slot (w / 256 % 4) st) (s.cmd g)

/-- Bulk admission: copies to other modules in flight on the core (R157, R338). -/
def State.bulkInFlight (s : State) : Nat :=
  (s.ops.filter fun o => o.key.core = s.core.id && !o.done && (match o.kind with | .cpyr .. => true | _ => false)).length

/-- `cpyr`. A length that is no multiple of 16 or above 2^24, and direction bits beyond [0], raise the address fault at the word as
its addresses do (assumption 85). -/
def execCpyr (g : BitVec 7) (s : State) : Host.Outcome State Fault Refusal :=
  finish s do
    let off := (s.U g.toNat).toNat
    let va : DWord := (s.U g.toNat).setWidth 64
    needAddr (off % 32 == 0 && decide (off + 32 ≤ s.blk.part)) va
    let f (o n : Nat) : Nat := leNat (cellsRead s.blk.scratch (off + o) n)
    let la := f 0 8
    let ra := f 8 8
    let len := f 20 4
    needAddr (la % 16 == 0 && decide (la < 2 ^ 57) && ra % 16 == 0 && decide (ra < 2 ^ 57) && len % 16 == 0 && decide (len ≤ 2 ^ 24) && decide (f 18 2 ≤ 1)) va
    if s.bulkInFlight ≥ 8 then .ok (s.putU latVar (g.toNat + 3) stBusy)
    else
      let t ← if len = 0 then .ok s else s.issueOp .cl (.cpyr la ra (f 16 2) (f 18 2 = 1) len) (s.cmd g)
      .ok (t.putU latVar (g.toNat + 3) stOk)

/-- A prefetch writes no architectural state and raises no fault (R158). -/
def execCpyp (_g : BitVec 7) (s : State) : Host.Outcome State Fault Refusal := done s

end Sys2Proof.Machine
end

