-- ==== Sys2Proof/Machine/NameOps.lean ====
section
/-!
DEFINITION. Names, the wait table, messages and the file service: majors 0x32, 0x33 and 0x35 (R173 to R181, R188 to R192,
R283, R285). A send is accepted at issue and resolved by SEND_RESOLVE.
-/
namespace Sys2Proof.Machine

/-! ## Sends (R174, R175, R190) -/

/-- The splits of a core that wait on a remote entry: each holds a slot of the name and signal class while it waits (R338). -/
def State.remoteWaits (s : State) (core : Nat) : List (WKey × Nat) :=
  (s.allWarps.filter fun w => w.key.core = core).flatMap fun w => (List.range 4).filterMap fun i => match (w.splitAt i).wait with
    | some (.nwait ..) => if w.level = .user ∧ s.remote w.name then some (w.key, i) else none
    | some (.njoin n _) => if s.remote n then some (w.key, i) else none
    | _ => none

/-- Sends of a class in flight from the core; `msg` tells the message class from the name and signal class. -/
def State.sendsOf (s : State) (msg : Bool) : Nat := (s.sends.filter fun x => x.core = some s.core.id && x.op.isMsg = msg).length

/-- The slots of a class of the core that are held. -/
def State.sendsInFlight (s : State) (msg : Bool) : Nat := s.sendsOf msg + if msg then 0 else (s.remoteWaits s.core.id).length

/-- An operation of the issuing split on an entry homed on a module has its slot, the one it holds already if it waits there, and a link
(R274, R338). -/
def State.remoteRoom (s : State) (name : DWord) : Bool :=
  s.routed name && decide (s.sendsOf false + ((s.remoteWaits s.core.id).takeWhile fun x => x != (s.warp.key, s.issue.sp)).length < 8)

/-- A send issued: BUSY without an admission slot, else accepted; its status comes later under the send's number. -/
def State.issueSend (s : State) (reg : Nat) (op : SendOp) (name : DWord) (anyGen : Bool) (gen : Half) : State :=
  if s.sendsInFlight false ≥ 8 then s.putU latVar reg stBusy
  else
    let t := s.putU latVar reg 0
    { t with sends := t.sends ++ [⟨s.nextId, some s.core.id, some s.warp.key, reg, op, name, anyGen, gen, s.ctx.domain, none, none⟩] }

def execNsig (g : BitVec 7) (a : BitVec 1) (s : State) : Host.Outcome State Fault Refusal :=
  done (s.issueSend (g.toNat + 3) (.sig (s.U (g.toNat + 2)).toNat) (s.UD g.toNat) (a = 1) ((s.U (g.toNat + 3)).setWidth 16))

def execNwake (g : BitVec 7) (a : BitVec 1) (s : State) : Host.Outcome State Fault Refusal :=
  done (s.issueSend (g.toNat + 3) .wake (s.UD g.toNat) (a = 1) ((s.U (g.toNat + 3)).setWidth 16))

def execNdep (g : BitVec 7) (k : BitVec 2) (n : BitVec 1) (s : State) : Host.Outcome State Fault Refusal :=
  done (s.issueSend (g.toNat + 3) (.dep k.toNat (s.UD (g.toNat + 2)) (n = 1)) (s.UD g.toNat) true 0)

/-! ## The caller's own entry (R176) -/

/-- The own entry of the issuing warp: none on this machine where it lies on another module (assumption 12), or for a handler's warp. -/
def State.own (s : State) : Option NameEntry := if s.warp.level = .user then s.entry s.warp.name else none

/-- The issuing warp's own entry lies on another module, whose hub resolves what it does with it (R274). -/
def State.ownAway (s : State) : Bool := s.warp.level = .user && s.remote s.warp.name

/-- This module or the home of the own entry is fenced (R340). -/
def State.ownCut (s : State) : Bool := s.fab.revoked.contains (s.nameHome s.warp.name) || s.fab.revoked.contains s.fab.homeModule

/-- The value that another module answers a read of its entry with: 0 once it is fenced (R279, assumption 12). -/
def State.remoteValue (s : State) : DWord :=
  if s.ownCut then 0 else Config.remoteStatus (s.tick + 1) ++ Config.remoteStatus s.tick

def execNrd (g : BitVec 7) (k : BitVec 2) (c : BitVec 1) (s : State) : Host.Outcome State Fault Refusal :=
  if s.ownAway then finish s do
    waitFor (s.remoteRoom s.warp.name) .retry
    .ok (({ s with tick := s.tick + 2 } : State).putUD latVar (g.toNat + 2) s.remoteValue)
  else match s.own with
  | none => done (s.putUD latVar (g.toNat + 2) 0)
  | some e =>
    let t := if c = 1 then s.setEntry { e with dep := e.dep.setIfInBounds k.toNat 0 } else s
    done (t.putUD latVar (g.toNat + 2) (e.dep[k.toNat]?.getD 0))

/-- The state after a wait has ended: the name is RUNNING again and the split waits no longer. -/
def nwaitOp (s : State) (g : Nat) (min : Word) (wake : Bool) : Res State := do
  let mn := min.toNat
  if s.ownAway then
    waitFor (s.remoteRoom s.warp.name) (.nwait min wake)
    let st := s.remoteAnswer s.warp.name
    waitFor (st = stOk || st = stAbsent || (wake && st = stWoken)) (.nwait min wake)
    let t : State := { s.unpark with tick := s.tick + 2 }
    .ok (if st = stAbsent then t.putU latVar (g + 3) st else t.putUD latVar (g + 2) (st ++ Config.remoteStatus (s.tick + 1)))
  else
    match s.own with
    | none => .ok (s.unpark.putU latVar (g + 3) stAbsent)
    | some e =>
      if e.count ≥ mn then
        .ok (((s.setEntry { e with count := e.count - mn }).unpark).putUD latVar (g + 2) (stOk ++ BitVec.ofNat 32 (e.count - mn)))
      else if wake && e.wake then
        .ok (((s.setEntry { e with wake := false }).unpark).putUD latVar (g + 2) (stWoken ++ BitVec.ofNat 32 e.count))
      else .error (.wait (.nwait min wake))

/-- The command registers are read at the issue, not at a later test (R151). -/
def execNwait (g : BitVec 7) (w : BitVec 1) (s : State) : Host.Outcome State Fault Refusal :=
  finish s (match s.split.wait with
    | some (.nwait mn wk) => nwaitOp s g.toNat mn wk
    | _ => nwaitOp s g.toNat (s.U (g.toNat + 2)) (w = 1))

/-- The status of a join, or none while it waits. -/
def State.joinStatus (s : State) (n : DWord) (gen : Half) : Option Word :=
  if s.remote n then
    let st := s.remoteAnswer n
    if !s.routed n then none
    else if st = stOk || st = stAbsent || st = stStale then some st else none
  else
    match s.entry n with
    | none => some stAbsent
    | some e => if e.gen != gen then some stStale else if e.st = 5 then some stOk else none

/-- A join of a name at a generation; one of a remote entry needs a slot of its class (R338). -/
def njoinOp (s : State) (g : Nat) (n : DWord) (gen : Half) : Res State := do
  waitFor (!s.remote n || s.remoteRoom n) (.njoin n gen)
  match s.joinStatus n gen with
  | some st => .ok ((if s.remote n then ({ s with tick := s.tick + 1 } : State) else s).unpark.putU latVar (g + 3) st)
  | none => .error (.wait (.njoin n gen))

def execNjoin (g : BitVec 7) (s : State) : Host.Outcome State Fault Refusal :=
  finish s (match s.split.wait with
    | some (.njoin n gen) => njoinOp s g.toNat n gen
    | some .joined => .ok (s.unpark.putU latVar (g.toNat + 3) stOk)
    | _ => njoinOp s g.toNat (s.UD g.toNat) ((s.U (g.toNat + 3)).setWidth 16))

def execNself (g : BitVec 7) (s : State) : Host.Outcome State Fault Refusal :=
  if s.ownAway then finish s do
    waitFor (s.remoteRoom s.warp.name) .retry
    .ok (({ s with tick := s.tick + 2 } : State).putU latVar (g.toNat + 3) (s.remoteValue.setWidth 32))
  else match s.own with
  | none => done (s.putU latVar (g.toNat + 3) 0)
  | some e =>
    let w := s.UD g.toNat
    let c := s.U (g.toNat + 2)
    let acc : Vector Half 4 := Vector.ofFn fun i => w.extractLsb' (16 * i.val) 16
    let t := s.setEntry { e with nacc := Nat.min 4 (c.toNat % 8), opn := c.getLsbD 3, accept := acc }
    done (t.putU latVar (g.toNat + 3) (e.gen.setWidth 32))

/-! ## The wait table (R178 to R181) -/

/-- A wait-table address: memory space, aligned. -/
def needWaitVa (va : DWord) (al : Nat) : Res Unit := needAddr (decide (va.toNat < 2 ^ 57) && va.toNat % al == 0) va

/-- The comparison of `wwait`: equal, or the status it ends with. -/
def waitCompare (s : State) (va : DWord) (al : Nat) (expected : Nat) : Res (Option Word) := do
  needWaitVa va al
  let p ← place s (progAccess s.warp.level true false 0) va al
  need (!s.poisoned p al) (.poison 0xFFFF 0)
  if s.valueAt p al != expected then .ok (some stNoteq)
  else if s.wtab.length ≥ 8192 then .ok (some stFull)
  else .ok none

def execWwait (g : BitVec 7) (x : BitVec 1) (s : State) : Host.Outcome State Fault Refusal :=
  match s.split.wait with
  | some (.wwait true) => done (s.unpark.putU latVar (g.toNat + 3) stWoken)
  | some (.wwait false) => .next (parkOn (.wwait false) s)
  | _ =>
    let va := s.UD g.toNat
    let want := if x = 1 then (s.UD (g.toNat + 2)).toNat else (s.U (g.toNat + 2)).toNat
    match waitCompare s va (if x = 1 then 8 else 4) want with
    | .ok (some st) => done (s.putU latVar (g.toNat + 3) st)
    | .ok none =>
      .next (parkOn (.wwait false) { s with
        nextId := s.nextId + 1, wtab := s.wtab ++ [⟨s.nextId, s.ctx.id, va, some s.warp.key, 0, s.issue.sp⟩] })
    | .error e => finish s (.error e)

def execWwake (g : BitVec 7) (s : State) : Host.Outcome State Fault Refusal :=
  finish s do
    let va := s.UD g.toNat
    needWaitVa va 4
    let (t, n) := s.wakeN s.ctx.id va (s.U (g.toNat + 2)).toNat
    .ok (t.putU latVar (g.toNat + 3) (BitVec.ofNat 32 n))

/-! ## Messages (R188 to R191) -/

def execMpost (g : BitVec 7) (s : State) : Host.Outcome State Fault Refusal :=
  finish s do
    let va := s.UD g.toNat
    let len := (s.U (g.toNat + 2)).toNat
    needAddr (va.toNat % 16 == 0 && decide (va.toNat + len ≤ 2 ^ 57) && decide (1 ≤ len) && decide (len ≤ 4096) && len % 16 == 0) va
    if s.ownAway then
      waitFor (s.remoteRoom s.warp.name) .retry
      .ok (({ s with tick := s.tick + 1 } : State).putU latVar (g.toNat + 2) (s.remoteAnswer s.warp.name))
    else match s.own with
    | none => .ok (s.putU latVar (g.toNat + 2) stAbsent)
    | some e =>
      if e.posts.length ≥ 8 then .ok (s.putU latVar (g.toNat + 2) stFull)
      else
        .ok ((s.setEntry { e with posts := e.posts ++ [(⟨va, len, s.U (g.toNat + 3)⟩ : Post)] }).putU latVar (g.toNat + 2) stOk)

/-- The 16-byte units of a payload in the partition that lie in poisoned lines (R331). -/
def State.badUnits (s : State) (off len : Nat) : List Bool :=
  (List.range ((len + 15) / 16)).map fun i => s.poisoned (.scratch s.blk.core s.blk.slot (off + 16 * i)) 16

/-- A message finds no admission: 8 are in flight from the core, or fewer than 16 bounce pages are free (R298). -/
def State.messageBusy (s : State) : Bool :=
  decide (s.sendsInFlight true ≥ 8) || s.bounceFull

def execMsend (g : BitVec 7) (s : State) : Host.Outcome State Fault Refusal :=
  finish s do
    let off := (s.U (g.toNat + 2)).toNat
    let w := (s.U (g.toNat + 3)).toNat
    let len := w % 2 ^ 13
    let va : DWord := (s.U (g.toNat + 2)).setWidth 64
    needAddr (off % 16 == 0 && decide (len ≤ 4096) && w / 2 ^ 13 % 8 == 0 && decide (off + len ≤ s.blk.part)) va
    if s.messageBusy then .ok (s.putU latVar (g.toNat + 3) stBusy)
    else
      let bytes := cellsRead s.blk.scratch off len
      let bad := s.badUnits off len
      let id := s.nextId
      let t : State := s.putU latVar (g.toNat + 3) 0
      let t := { t with sends := t.sends ++ [(⟨id, some s.core.id, some s.warp.key, g.toNat + 3,
        .msg len (BitVec.ofNat 16 (w / 2 ^ 16)) bytes bad, s.UD g.toNat, true, 0, s.ctx.domain, none, none⟩ : Send)] }
      t.issueOp .cl (.msend id) (s.cmd g)

/-- The four registers of a receipt (R191). -/
def State.putReceipt (s : State) (g : Nat) (r : Receipt) : State :=
  ((s.putUD latVar g (r.status ++ r.id)).putUD latVar (g + 2) ((r.domain ++ r.tag) ++ r.len))

/-- What another module answers an `mstat` with: a receipt, or none (assumption 12). -/
def State.remoteReceipt (s : State) : Option Receipt :=
  let v (i : Nat) : Word := Config.remoteStatus (s.tick + i)
  if s.ownCut || !(v 0).getLsbD 0 then none else some ⟨v 1, v 2, v 3, (v 4).setWidth 16, (v 5).setWidth 16⟩

def execMstat (g : BitVec 7) (p : BitVec 3) (s : State) : Host.Outcome State Fault Refusal :=
  if s.ownAway then finish s do
    waitFor (s.remoteRoom s.warp.name) .retry
    let t : State := { s with tick := s.tick + 6 }
    .ok (match s.remoteReceipt with
      | none => t.putP latVar p.toNat false
      | some r => (t.putReceipt g.toNat r).putP latVar p.toNat true)
  else match s.own with
  | none => done (s.putP latVar p.toNat false)
  | some e =>
    match e.receipts with
    | [] => done (s.putP latVar p.toNat false)
    | r :: rest => done (((s.setEntry { e with receipts := rest }).putReceipt g.toNat r).putP latVar p.toNat true)

/-! ## The file service (R192, R285) -/

def execFsreq (g : BitVec 7) (k : BitVec 2) (s : State) : Host.Outcome State Fault Refusal :=
  finish s do
    let off := (s.U g.toNat).toNat
    let va : DWord := (s.U g.toNat).setWidth 64
    needAddr (off % 32 == 0 && decide (off + 32 ≤ s.blk.part)) va
    if s.messageBusy then .ok (s.putU latVar (g.toNat + 3) stBusy)
    else
      let bytes := cellsRead s.blk.scratch off 28 ++ leBytes 4 k.toNat ++ leBytes 8 s.warp.name.toNat
      let bad := s.badUnits off 28
      let t := s.putU latVar (g.toNat + 3) stOk
      .ok { t with
        nextId := t.nextId + 1
        sends := t.sends ++ [⟨t.nextId, some s.core.id, none, 0, .msg 40 Config.fileTag bytes bad, s.ctx.service, true, 0, s.ctx.domain, none, none⟩] }

end Sys2Proof.Machine
end

