-- ==== Sys2Proof/Machine/StreamOps.lean ====
section
/-!
DEFINITION. Stream operations: major 0x34 (R182 to R187, R302, R307). An accepted operation is resolved by SEND_RESOLVE.
-/
namespace Sys2Proof.Machine

/-- Firing-class admission: stream operations in flight from the core (R302). -/
def State.firingInFlight (s : State) : Nat := (s.sops.filter fun x => x.2.1.core = s.core.id).length

/-- A stream operation issued: BUSY without a slot; its status comes later under its number. -/
def State.issueStream (s : State) (reg : Nat) (op : StreamOp) : State :=
  if s.firingInFlight ≥ 8 then s.putU latVar reg stBusy
  else
    let t := s.putU latVar reg 0
    { t with sops := t.sops ++ [(s.nextId, s.warp.key, s.ctx.id, op)] }

/-- A configured stream of the issuing warp's context (R299). -/
def State.myStream (s : State) (n : Nat) : Option Stream := (s.stream n).filter fun x => x.ctx = s.ctx.id

/-- The source that a selector names (R182). -/
def State.selected (s : State) (sel : Word) : Option (Nat × Nat) :=
  let n := sel.toNat % 256
  let src := sel.toNat / 256 % 16
  match s.myStream n with
  | some x => if decide (sel.toNat < 4096) && x.sources.any (fun q => q.n = src) then some (n, src) else none
  | none => none

def execSrec (g : BitVec 7) (v : BitVec 6) (s : State) : Host.Outcome State Fault Refusal :=
  let op := match s.selected (s.U g.toNat) with
    | some (n, src) => StreamOp.srec n src (s.U (g.toNat + 1)) (s.UD (g.toNat + 2)).toNat (blend s.active0 (s.V v.toNat) zeroVec)
    | none => .absent
  done (s.issueStream g.toNat op)

def execSwm (g : BitVec 7) (s : State) : Host.Outcome State Fault Refusal :=
  let op := match s.selected (s.U g.toNat) with
    | some (n, src) => StreamOp.swm n src (s.UD (g.toNat + 2)).toNat
    | none => .absent
  done (s.issueStream g.toNat op)

def execSidle (g : BitVec 7) (s : State) : Host.Outcome State Fault Refusal :=
  let op := match s.selected (s.U g.toNat) with
    | some (n, src) => StreamOp.sidle n src
    | none => .absent
  done (s.issueStream g.toNat op)

/-- The start of a window (R305). -/
def State.windowStart (s : State) (a : Activation) : DWord :=
  BitVec.ofNat 64 (a.window * ((s.stream a.stream).map (·.slide)).getD 0)

def execSwin (g : BitVec 7) (s : State) : Host.Outcome State Fault Refusal :=
  match s.blk.act with
  | none => done (s.putU latVar g.toNat stNone)
  | some a =>
    done ((s.putUD latVar g.toNat (BitVec.ofNat 32 a.window ++ BitVec.ofNat 32 (a.stream + 256 * a.amend.toNat))).putUD
      latVar (g.toNat + 2) (s.windowStart a))

def execSwinL (g : BitVec 7) (v : BitVec 6) (s : State) : Host.Outcome State Fault Refusal :=
  match s.blk.act with
  | none => done (s.putU latVar g.toNat stNone)
  | some a =>
    if a.amend then
      let payload : VReg := Vector.ofFn fun i => a.payload[i.val]?.getD 0
      done (((s.putU latVar (g.toNat + 1) a.key).putUD latVar (g.toNat + 2) a.time).put latVar (s.warp.vdest v.toNat) s.active0 payload)
    else done (s.putU latVar g.toNat stNone)

/-- The stream to which the issuing kernel is bound (R308). -/
def State.bound (s : State) : Option Nat := (s.streams.find? fun x => x.launch = some s.blk.launch && x.ctx = s.ctx.id).map (·.n)

/-- `spub` and `samend` on the bound stream (R186). -/
def publish (s : State) (g : Nat) (amend : Bool) : State :=
  let op := match s.bound with
    | some n => StreamOp.spub ((s.U g).toNat % 65536) (s.U (g + 1)) (s.UD (g + 2)) amend n
    | none => .absent
  s.issueStream g op

def execSpub (g : BitVec 7) (s : State) : Host.Outcome State Fault Refusal := done (publish s g.toNat false)

def execSamend (g : BitVec 7) (s : State) : Host.Outcome State Fault Refusal := done (publish s g.toNat true)

def execSdone (g : BitVec 7) (s : State) : Host.Outcome State Fault Refusal :=
  let sel := (s.U g.toNat).toNat
  let op := if decide (sel < 256) && (s.myStream sel).isSome then StreamOp.sdone sel (s.U (g.toNat + 1)).toNat else .absent
  done (s.issueStream g.toNat op)

end Sys2Proof.Machine
end

