-- ==== Sys2Proof/Machine/MatrixSeq.lean ====
section
/-!
DEFINITION. The words of the matrix stream (R59, R60, R166 to R172) on the sequencer of the loaded block, and what an
mmac writes (R32 to R41). An mmac is put in the array at its word and writes its tile at MMAC_COMPLETE.
-/
namespace Sys2Proof.Machine

/-! ## Factors (R22 to R26, R32, R36) -/

/-- The format of an operand whose factors are floating-point values. -/
def slotFmt (f : Nat) : Option Fmt :=
  match f with
  | 0 => some bf16
  | 1 => some fp16
  | 2 => some e4m3
  | 3 => some e5m2
  | 4 => some e4m3
  | 5 => some e5m2
  | 6 => some e3m2
  | 7 => some e2m3
  | 8 => some e2m1
  | _ => none

/-- The code of element k of row i of an image (R32). -/
def OSlot.code (o : OSlot) (i k : Nat) : Nat :=
  let rb := imageBytes o.hdr / 32
  let w := fmtBits (hdrFmt o.hdr)
  (leNat (cellsRead o.img (i * rb + k * w / 8) 3) >>> (k * w % 8)) % 2 ^ w

/-- The scale word of a block of a row (R32). -/
def OSlot.scaleOf (o : OSlot) (i blk : Nat) : Nat := leNat (cellsRead o.scl ((i * (hdrK o.hdr / 32) + blk) * 2) 2)

/-- A factor's value, scaled (R24, R35); the NaN scale makes every element NaN. -/
def OSlot.factor (o : OSlot) (i k : Nat) : FVal :=
  match slotFmt (hdrFmt o.hdr) with
  | none => .nan
  | some f =>
    let v := f.decode (o.code i k)
    if isMx o.hdr then
      let s := o.scaleOf i (k / 32) % 256
      if s = 255 then .nan
      else match v with
        | .num d => .num { d with exp := d.exp + ((s : Int) - 127) }
        | v => v
    else v

/-- An integer factor (R25, R37). -/
def OSlot.intFactor (o : OSlot) (i k : Nat) : Int :=
  let c := o.code i k
  if hdrFmt o.hdr = 9 then sextNat c 8
  else if hdrFmt o.hdr = 10 then (c : Int)
  else if c = 1 then 1 else if c = 3 then -1 else 0

/-- A row holds a bad scale (R39). -/
def OSlot.badScaleRow (o : OSlot) (i : Nat) : Bool :=
  isMx o.hdr && (List.range (hdrK o.hdr / 32)).any fun b => badScale (o.scaleOf i b)

/-- A ternary code 10 in the image (R25). -/
def OSlot.nonconforming (o : OSlot) : Bool :=
  hdrFmt o.hdr = 11 && (List.range 32).any fun i => (List.range 128).any fun k => o.code i k = 2

/-! ## The matrix sum (R35 to R37) -/

/-- Products with a zero factor contribute +0 and are left out (R36). -/
def productsOf (a b : OSlot) (i j : Nat) : List FVal :=
  (List.range (hdrK a.hdr)).filterMap fun k =>
    let x := a.factor i k
    let y := b.factor j k
    if x.isZero || y.isZero then none
    else
      let p := x.mul y
      some (match p with | .num d => .num { d with exp := d.exp - (if hdrRot a.hdr then 5 else 0) } | v => v)

/-- A term truncated toward zero to a multiple of 2^q, in that unit. -/
def truncTo (q : Int) (d : Dy) : Int :=
  let n : Nat := if d.exp ≥ q then d.man <<< (d.exp - q).toNat else d.man >>> (q - d.exp).toNat
  if d.neg then -(n : Int) else n

def dyOf : FVal → Option Dy
  | .num d => if d.man = 0 then none else some d
  | _ => none

/-- The sum of R35 over c and the remaining products, with the special cases of R36. -/
def matrixSum (c : Word) (ps : List FVal) : Word :=
  let ts := fp32.decode c.toNat :: ps
  if ts.any FVal.isNan then 0x7FC00000#32
  else
    let inf (n : Bool) : Bool := ts.any fun t => t = .inf n
    if inf false && inf true then 0x7FC00000#32
    else if inf false then 0x7F800000#32
    else if inf true then 0xFF800000#32
    else
      match ts.filterMap dyOf with
      | [] => 0
      | d :: r =>
        let q := r.foldl (fun m x => max m x.log2) d.log2 - 60
        let n := (d :: r).foldl (fun a x => a + truncTo q x) (0 : Int)
        if n = 0 then 0 else BitVec.ofNat 32 (fp32.rnd .rn (.num ⟨decide (n < 0), n.natAbs, q⟩))

/-- The integer sum of R37. -/
def intSum (c : Word) (a b : OSlot) (i j : Nat) (sat : Bool) : Word :=
  let t := (List.range (hdrK a.hdr)).foldl (fun s k => s + a.intFactor i k * b.intFactor j k) c.toInt
  if sat then BitVec.ofInt 32 (satS 32 t) else BitVec.ofInt 32 t

def isInt (h : Word) : Bool := decide (hdrFmt h ≥ 9)

/-- Row i of the tile after an mmac. -/
def mmacRow (old : VReg) (a b : OSlot) (i : Nat) (sat : Bool) : VReg :=
  Vector.ofFn fun j =>
    if isInt a.hdr then intSum old[j] a b i j.val sat else matrixSum old[j] (productsOf a b i j.val)

/-- The rows that an mmac poisons (R39, R331). -/
def mmacPoison (a b : OSlot) : Word :=
  let all := b.badRows != 0 || (List.range 32).any b.badScaleRow
  if all then allLanes
  else a.badRows ||| (List.range 32).foldl (fun m i => if a.badScaleRow i then m ||| (1#32 <<< i) else m) 0

/-- The tile write of an mmac: the core's store and the block's tile status (R39, R25). `shadow`: the rows in which a shadow column
differs (R330). -/
def mmacWrite (c : Core) (b : Block) (f : MFlight) (shadow : Word) : Core × Block :=
  let x := b.operand f.a
  let y := b.operand f.b
  let bad := mmacPoison x y ||| shadow
  let nanRow : VReg := splat (if isInt x.hdr then 0 else 0x7FC00000#32)
  let c := (List.range 32).foldl (fun (c : Core) i =>
    c.setAccRow f.tile i (if bad.getLsbD i then nanRow else mmacRow (c.accRow f.tile i) x y i f.sat)) c
  let t := b.tile f.tile
  (c, b.setTile { t with poison := t.poison ||| bad, nconf := t.nconf || x.nonconforming || y.nonconforming })

/-! ## Pairings (R33, R38, R41) -/

/-- The pairing of two headers is in the table of R33. -/
def paired (a b : Word) : Bool :=
  let x := hdrFmt a
  let y := hdrFmt b
  (x = 0 && y = 0) || (x = 1 && y = 1) || ((x = 2 || x = 3) && (y = 2 || y = 3)) || ((x = 4 || x = 5) && (y = 4 || y = 5)) ||
    (decide (6 ≤ x) && decide (x ≤ 8) && decide (6 ≤ y) && decide (y ≤ 8)) ||
    ((x = 9 || x = 10) && (y = 9 || y = 10) && !hdrK128 a && !hdrK128 b) ||
    (x = 11 && (y = 9 || y = 10) && hdrK128 b) || ((x = 9 || x = 10) && hdrK128 a && y = 11)

/-- Rotation is marked on both sides with one seed, or on neither (R41). -/
def rotated (a b : Word) : Bool := hdrRot a == hdrRot b && (!hdrRot a || hdrSeed a = hdrSeed b)

/-! ## The sequencer -/

/-- The word is done: the next word one cycle later (R166). -/
def State.seqNext (s : State) : State :=
  { s with blk := { s.blk with seq := { s.blk.seq with pc := s.blk.seq.pc + 4, nextAt := s.clock + 1 } } }

def State.setSeq (s : State) (q : Seq) : State := { s with blk := { s.blk with seq := q } }

/-- An address inside the matrix-stream section (R60). -/
def Seq.inside (q : Seq) (a : DWord) : Bool := decide (q.base ≤ a) && (q.len = 0 || decide (a.toNat < q.base.toNat + q.len))

/-- A jump by a signed 23-bit byte count, which does not wrap below address 0, and whose target is checked before the word takes effect (R60, R167, R171). -/
def seqJump (s : State) (d : BitVec 23) (c : Bool) : Res State := do
  let t := s.blk.seq.pc + d.signExtend 64
  need (d.toNat % 4 == 0 && decide (0 ≤ s.blk.seq.pc.toNat + d.toInt) && s.blk.seq.inside t) (.illegal 10 0)
  .ok (if c then (s.seqNext).setSeq { s.blk.seq with pc := t, nextAt := s.clock + 1 } else s.seqNext)

def execMnop (s : State) : Host.Outcome State Fault Refusal := finishSeq s (.ok s.seqNext)

/-- The checks of an mmac, in the order of R168, and its start in the array. -/
def mmacStart (s : State) (t : BitVec 10) (a b : BitVec 8) : Res State := do
  need (t.toNat < s.blk.acc && a.toNat < s.blk.slots && b.toNat < s.blk.slots) .resourceRange
  accCheck s t.toNat
  need (!s.blk.partner a.toNat && !s.blk.partner b.toNat) .operandFormat
  let x := s.blk.oslot a.toNat
  let y := s.blk.oslot b.toNat
  need (x.valid && y.valid) .operandFormat
  need (paired x.hdr y.hdr && rotated x.hdr y.hdr && (s.blk.tile t.toNat).int == isInt x.hdr) .operandFormat
  waitFor (x.filled && y.filled) .retry
  need (x.stamp = some (hdrSwz x.hdr) && y.stamp = some (hdrSwz y.hdr)) .operandFormat
  waitFor (s.blk.seq.arrayFree ≤ s.clock) .retry
  let q := s.blk.seq
  let f : MFlight := ⟨s.clock + 15, t.toNat, a.toNat, b.toNat, q.sat, q.number⟩
  let blk := s.blk.setOslot { x with readers := x.readers + 1 }
  let blk := if a = b then blk else blk.setOslot { y with readers := y.readers + 1 }
  .ok ({ s with blk := blk }.setSeq { q with number := (q.number + 1) % 16, arrayFree := s.clock + 16, flights := q.flights ++ [f] }).seqNext

def execMmac (t : BitVec 10) (a b : BitVec 8) (s : State) : Host.Outcome State Fault Refusal := finishSeq s (mmacStart s t a b)

/-- A release by the sequencer, deferred while an mmac reads the slot (R164, R169). -/
def State.seqRelease (s : State) (slot : Nat) : State :=
  if s.blk.partner slot || !(s.blk.oslot slot).ahead.claimed then s
  else s.slotEvent slot (.release s.nextId none false)

def execMmact (t : BitVec 10) (a b : BitVec 8) (s : State) : Host.Outcome State Fault Refusal :=
  finishSeq s do
    let u ← mmacStart s t a b
    let u := u.seqRelease a.toNat
    .ok (if a = b then u else u.seqRelease b.toNat)

def execMzero (t : BitVec 10) (y : BitVec 1) (s : State) : Host.Outcome State Fault Refusal :=
  finishSeq s do
    accCheck s t.toNat
    waitFor (s.blk.seq.flights.all fun f => f.tile != t.toNat) .retry
    let c := { s.core with acc := s.core.acc.filter fun r => r.1 / 32 != t.toNat }
    .ok ({ s with core := c, blk := s.blk.setTile ⟨t.toNat, y = 1, 0, false⟩ }).seqNext

def execMrel (p : BitVec 1) (a b : BitVec 8) (s : State) : Host.Outcome State Fault Refusal :=
  finishSeq s do
    need (p = 1 || b = 0) (.illegal 4 0)
    need (a.toNat < s.blk.slots && (p = 0 || b.toNat < s.blk.slots)) .resourceRange
    let u := s.seqRelease a.toNat
    .ok (if p = 1 && a != b then u.seqRelease b.toNat else u).seqNext

/-- Every earlier tile write and deferred release has been made (R166). -/
def seqDrained (s : State) : Res Unit :=
  waitFor (s.blk.seq.flights.isEmpty && s.blk.oslots.all fun o => o.events.all fun e => e.who.isSome) .retry

/-- The sequencer may arrive at a barrier: it is drained, a member, and no arrival of its own waits (R166, R170). -/
def seqMember (s : State) (n : Nat) : Res Unit := do
  waitFor s.blk.seq.late.isNone .retry
  seqDrained s
  need (n < s.blk.bars && ((s.blk.barrier[n]?.map (·.memSeq))).getD false) .resourceRange

/-- The sequencer's arrival at a barrier of which it is a member (R170). A second one in a generation waits for the next (R241); `w`:
it then waits for that one to complete. -/
def seqArrive (s : State) (n : Nat) (w : Bool) : Host.Outcome State Fault Refusal :=
  match seqMember s n with
  | .error e => finishSeq s (.error e)
  | .ok _ =>
    let q := s.blk.seq
    let g := s.genOf false n
    let at' (t : State) (f : Bar → Bar) : State := t.touchBar s.blk.core s.blk.slot n f
    let q := if w then { q with abn := false } else q
    if ((s.blk.barrier[n]?.map (·.arrSeq))).getD false then
      .next ((at' (s.setSeq { q with late := some (n, g, w) }) fun b => { b with waitSeq := true }).endIssue (.waiting .retry))
    else if w then done (at' (s.setSeq { q with waiting := some (n, g) }) fun b => { b with arrSeq := true })
    else done (at' s fun b => { b with arrSeq := true }).seqNext

def execMbara (n : BitVec 4) (s : State) : Host.Outcome State Fault Refusal := seqArrive s n.toNat false

/-- `mbarw`: it arrives, and goes on once that generation has completed. -/
def execMbarw (n : BitVec 4) (s : State) : Host.Outcome State Fault Refusal :=
  match s.blk.seq.waiting with
  | some (m, g) =>
    finishSeq s do
      waitFor (s.genOf false m != g) .retry
      .ok (s.setSeq { s.blk.seq with waiting := none }).seqNext
  | none => seqArrive s n.toNat true

def execMset (n : BitVec 3) (i : BitVec 16) (s : State) : Host.Outcome State Fault Refusal :=
  finishSeq s (.ok (s.setSeq { s.blk.seq with c := s.blk.seq.c.setIfInBounds n.toNat i }).seqNext)

def execMsetMode (m : BitVec 1) (s : State) : Host.Outcome State Fault Refusal :=
  finishSeq s (.ok (s.setSeq { s.blk.seq with sat := m = 1 }).seqNext)

def execMdec (n : BitVec 3) (s : State) : Host.Outcome State Fault Refusal :=
  let v := s.blk.seq.c[n.toNat]?.getD 0
  finishSeq s (.ok (s.setSeq { s.blk.seq with c := s.blk.seq.c.setIfInBounds n.toNat (if v = 0 then 0 else v - 1) }).seqNext)

def execMbnz (n : BitVec 3) (d : BitVec 23) (s : State) : Host.Outcome State Fault Refusal :=
  finishSeq s (seqJump s d (s.blk.seq.c[n.toNat]?.getD 0 != 0))

def execMbstAb (d : BitVec 23) (s : State) : Host.Outcome State Fault Refusal := finishSeq s (seqJump s d s.blk.seq.abn)

def execMbstNab (d : BitVec 23) (s : State) : Host.Outcome State Fault Refusal := finishSeq s (seqJump s d (!s.blk.seq.abn))

def execMjmp (d : BitVec 23) (s : State) : Host.Outcome State Fault Refusal := finishSeq s (seqJump s d true)

/-- `mend` (R172): the sequencer stops, arrives at its barriers and leaves them. -/
def execMend (s : State) : Host.Outcome State Fault Refusal :=
  finishSeq s do
    seqDrained s
    let u := s.setSeq { s.blk.seq with ended := true }
    .ok ((List.range s.blk.bars).foldl (fun u n => u.touchBar s.blk.core s.blk.slot n fun b =>
      if b.memSeq then { b with arrSeq := true, nmemSeq := false } else { b with nmemSeq := false }) u)

end Sys2Proof.Machine
end

