-- ==== Sys2Proof/Machine/Snapshot.lean ====
section
/-!
DEFINITION. The layouts in which a warp's and a block's state is copied out: the four parts of `wsnap` (R198), and the
records of a save (R288, R290).
-/
namespace Sys2Proof.Machine

def wordBytes (w : Word) : List Byte := leBytes 4 w.toNat

def vregBytes (v : VReg) : List Byte := v.toList.flatMap wordBytes

/-! ## The parts of `wsnap` (R198) -/

/-- Part 00. -/
def Warp.regPart (w : Warp) : List Byte :=
  (w.vfix.toList.flatMap vregBytes) ++ (w.sregs.toList.flatMap wordBytes) ++ leBytes 4 (w.preds ||| 1).toNat ++
    ((w.masks.toList.drop 1).flatMap wordBytes) ++ (w.q.toList.flatMap fun q => leBytes 8 q.toNat) ++
    leBytes 4 w.wbase ++ leBytes 4 w.wdepth ++ leBytes 4 w.w ++ leBytes 4 0 ++ leBytes 48 0 ++
    ((w.ring.toList.take w.w).flatMap vregBytes)

def Split.bytes (p : Split) : List Byte :=
  if p.st = .free then leBytes 32 0
  else
    leBytes 8 p.pc.toNat ++ wordBytes p.mask ++ wordBytes p.sig ++
      leBytes 4 ((if p.st = .live && !p.atAwait then 1 else 2) + 4 * p.mism.toNat) ++ leBytes 8 p.region.toNat ++ wordBytes p.saved

/-- The on-chip link entries, the oldest first, 16 bytes each, padded to 32 of them. -/
def Warp.linkBytes (w : Warp) : List Byte :=
  let on := (w.links.filter fun l => !l.out).reverse
  ((on.take 32).flatMap fun l => leBytes 8 l.ret.toNat ++ leBytes 4 l.k ++ leBytes 4 0) ++ leBytes (16 * (32 - on.length)) 0

/-- Part 01; the reconvergence block is opaque (R208, assumption 10). -/
def State.ctlPart (s : State) (w : Warp) : List Byte :=
  (w.splits.toList.flatMap Split.bytes) ++ w.linkBytes ++ ((List.range 512).map (Config.reconByte s.tick)) ++
    leBytes 1 (s.counter w.key .cp) ++ leBytes 1 (s.counter w.key .gs) ++ leBytes 1 (s.counter w.key .cl) ++
    leBytes 1 (s.counter w.key .ax) ++ leBytes 12 0 ++ leBytes 8 w.loopHead.toNat ++ leBytes 104 0

/-- The full-empty bits of a partition, granule g at bit g mod 8 of byte g ÷ 8. -/
def Block.fullBytes (b : Block) : List Byte :=
  (List.range ((b.part + 127) / 128)).map fun j =>
    BitVec.ofNat 8 ((List.range 8).foldl (fun a i => a + (b.full.contains (8 * j + i)).toNat * 2 ^ i) 0)

/-- Part 10. -/
def Block.scratchPart (b : Block) : List Byte := cellsRead b.scratch 0 b.part ++ b.fullBytes

def Bar.bytes (x : Bar) : List Byte := wordBytes x.mem ++ leBytes 4 x.memSeq.toNat ++ wordBytes x.gen ++ wordBytes x.arr

/-- The ranks of a block among the members of a cluster barrier. -/
def ranksIn (b : Block) (ks : List WKey) : Word :=
  (ks.filter fun k => k.core = b.core && k.slot = b.slot).foldl (fun m k => m ||| rankBit k.rank) 0

def CBar.bytesFor (x : CBar) (b : Block) : List Byte :=
  wordBytes (ranksIn b x.mem) ++ leBytes 4 0 ++ wordBytes x.gen ++ wordBytes (ranksIn b x.arr)

/-- Part 11. -/
def State.barPart (s : State) (b : Block) : List Byte :=
  ((List.range 16).flatMap fun n => if n < b.bars then (match b.barrier[n]? with | some x => x.bytes | none => leBytes 16 0) else leBytes 16 0) ++
    ((List.range 4).flatMap fun n => if b.clusterBars then (s.cbar b.ctx (s.fab.clusterOf b.core) n).bytesFor b else leBytes 16 0)

/-- The block that holds a context slot of a core: resident, or saved with its core kept (R290). -/
def State.blockAt (s : State) (core slot : Nat) : Option Block :=
  (s.getBlk core slot).or ((s.saved.find? fun v => v.blk.core = core && v.blk.slot = slot && !v.blk.freed).map (·.blk))

/-- Offsets of the 16-byte units of part 10 that lie in poisoned lines (R331). -/
def Block.snapBad (b : Block) : List Nat :=
  ((List.range (b.part / 16)).map fun i => 16 * i).filter fun o => b.spoison.contains (o / 64)

def State.snapBad (s : State) (core slot part : Nat) : List Nat :=
  if part = 2 then ((s.blockAt core slot).map Block.snapBad).getD [] else []

/-- The part that a `wsnap` copies; a slot without a live warp gives zeros for parts 00 and 01. -/
def State.snapPart (s : State) (core slot wslot part : Nat) : List Byte :=
  let b := s.blockAt core slot
  let w := s.allWarps.find? fun w => w.ofBlk core slot && w.wslot = wslot && !w.exited
  match part with
  | 0 => match w with | some w => w.settleFixed.regPart | none => leBytes 2560 0
  | 1 => match w with | some w => s.ctlPart w | none => leBytes 1280 0
  | 2 => match b with | some b => b.scratchPart | none => []
  | _ => match b with | some b => s.barPart b | none => leBytes 320 0

/-! ## The records of a save (R288, R290) -/

/-- The record of one entry of a data queue, in data and in descriptor. -/
def DqEntry.descriptor (e : DqEntry) : List Byte :=
  leBytes 4 (1 + 2 * e.arrived.toNat) ++ wordBytes e.word ++ wordBytes e.pword ++ wordBytes e.mask ++ leBytes 8 e.base.toNat ++ leBytes 8 0

/-- The eight places of each queue, the oldest entry first. -/
def dqPlaces (w : Warp) (f : DqEntry → List Byte) (n : Nat) : List Byte :=
  w.dq.toList.flatMap fun q => (List.range 8).flatMap fun i => match q[i]? with | some e => f e | none => leBytes n 0

/-- `bq`: the outcomes, the oldest in bit 0, and their count. -/
def Warp.bqBytes (w : Warp) : List Byte :=
  leBytes 4 ((w.bq.mapIdx fun i o => o.toNat * 2 ^ i).foldl (· + ·) (w.bq.length * 2 ^ 16)) ++ leBytes 12 0

def Warp.rackBytes (w : Warp) : List Byte :=
  match w.rack with
  | .none => leBytes 16 0
  | some r => leBytes 4 (if r.spill then 1 else 2) ++ leBytes 4 r.depth ++ leBytes 8 r.off

/-- The log record of a copy (R197): 0 completed, 1 cancelled, 2 suspended. -/
def EngOp.logBytes (o : EngOp) (st : Nat) : List Byte :=
  leBytes 2 o.key.core ++ leBytes 1 o.wslot ++ leBytes 1 (if o.cls = .cl then 1 else 0) ++ leBytes 4 st ++ leBytes 8 o.off ++
    (o.cmd.toList.flatMap wordBytes)

/-- An operation that moves bytes unit by unit, at a byte offset (R155). -/
def EngKind.isCopy : EngKind → Bool
  | .cpy .. => true
  | .cpyo .. => true
  | .cpyr .. => true
  | .wsnap .. => true
  | _ => false

/-- What a queue entry's place holds: its data, or the index vector of a load that is recorded (R288). -/
def DqEntry.placed (e : DqEntry) : VReg := if e.arrived then e.val else e.index

/-- A warp's record, with its copies in flight. -/
def State.warpRecord (s : State) (w : Warp) : List Byte :=
  let os := s.ops.filter fun o => o.key = w.key && !o.done && o.kind.isCopy
  s.ctlPart w ++ w.regPart ++ dqPlaces w (fun e => vregBytes e.placed) 128 ++ dqPlaces w DqEntry.descriptor 32 ++ w.bqBytes ++
    w.rackBytes ++ leBytes 4 os.length ++ leBytes 12 0 ++ (os.flatMap fun o => o.logBytes 2)

def Seq.bytes (q : Seq) : List Byte :=
  leBytes 8 q.pc.toNat ++ (q.c.toList.flatMap fun c => leBytes 2 c.toNat) ++ leBytes 2 q.sat.toNat ++
    leBytes 2 (q.abn.toNat + 2 * q.stopped.toNat + 4 * q.ended.toNat) ++ leBytes 36 0

/-- A block's record; the partition only when the core's resources are freed. -/
def State.blockRecord (s : State) (b : Block) (free : Bool) : List Byte :=
  b.seq.bytes ++ s.barPart b ++ leBytes 8 (b.inbox.getD 0).toNat ++ leBytes 4 b.inbox.isSome.toNat ++ leBytes 4 0 ++
    leBytes 4 b.items.length ++ leBytes 12 0 ++ (b.items.flatMap wordBytes) ++ leBytes (4 * (256 - b.items.length)) 0 ++
    ((List.range b.slots).flatMap fun n =>
      let o := b.oslot n
      if o.claimed then wordBytes o.hdr ++ wordBytes o.soff ++ wordBytes o.status ++ leBytes 4 0 else leBytes 16 0) ++
    (if free then b.scratchPart else [])

/-- Sizes of save areas, in bytes, rounded to 4 KiB (R288). -/
def roundPage (n : Nat) : Nat := (n + 4095) / 4096 * 4096

def Warp.areaSize (w : Warp) : Nat := roundPage (13056 + 128 * w.w)

def Block.areaSize (b : Block) (free : Bool) : Nat :=
  roundPage (1440 + 16 * b.slots + (if free then b.part + (b.part + 127) / 128 else 0))

/-- A device access to the save pool or to a tile save area, through the context's tables. -/
def poolAccess : Access := { read := true, write := true, fetch := false, user := false, cask := false, agent := 2 }

/-- Bytes written page by page; a page that forbids it keeps what it held (assumption 20). -/
def storePool (root : Nat) : Nat → State → Nat → List Byte → State
  | 0, s, _, _ => s
  | fuel + 1, s, va, bs =>
    if bs.isEmpty then s
    else
      let n := 4096 - va % 4096
      let s := match translate s root poolAccess va with
        | .ok (pa, key) => s.writeMem key pa (bs.take n)
        | .error _ => s
      storePool root fuel s (va + n) (bs.drop n)

def State.storePool (s : State) (ctx va : Nat) (bs : List Byte) : State :=
  Machine.storePool (((s.getCtx ctx).map (·.root)).getD 0) (bs.length / 4096 + 2) s va bs

/-- The physical pages that n bytes of a context's memory lie in, where they may be written. -/
def State.poolPages (s : State) (ctx va n : Nat) : List Nat :=
  (pagesOf va n).filterMap fun p => match translate s (((s.getCtx ctx).map (·.root)).getD 0) poolAccess (4096 * p) with
    | .ok (pa, _) => some (pa / 4096)
    | .error _ => none

/-! ### The records read back (R291) -/

/-- A reader of the fields of a record: offset, size, and the value that the device keeps, for a page that forbids the access
(assumption 20). -/
abbrev FieldReader := Nat → Nat → Nat → Nat

def State.fields (s : State) (ctx base : Nat) : FieldReader := fun o n old =>
  match translate s (((s.getCtx ctx).map (·.root)).getD 0) poolAccess (base + o) with
  | .ok (pa, key) => leNat (s.readMem key pa n)
  | .error _ => old

def readWord (rd : FieldReader) (o : Nat) (x : Word) : Word := BitVec.ofNat 32 (rd o 4 x.toNat)

def readDWord (rd : FieldReader) (o : Nat) (x : DWord) : DWord := BitVec.ofNat 64 (rd o 8 x.toNat)

def readVReg (rd : FieldReader) (o : Nat) (v : VReg) : VReg := v.mapIdx fun l x => readWord rd (o + 4 * l) x

/-- A split from its record of part 01; what it waits for stands in the reconvergence block, which the device keeps (R208). -/
def Split.readBack (p : Split) (rd : FieldReader) (o : Nat) : Split :=
  if p.st = .free then p
  else
    { p with
      pc := readDWord rd o p.pc, mask := readWord rd (o + 8) p.mask, sig := readWord rd (o + 12) p.sig
      mism := (rd (o + 16) 4 (4 * p.mism.toNat)).testBit 2, region := readDWord rd (o + 20) p.region, saved := readWord rd (o + 28) p.saved }

/-- The link entries on chip, the oldest first in the record. -/
def readLinks (rd : FieldReader) (ls : List Link) : List Link :=
  let on := (ls.filter fun l => !l.out).reverse
  let n := Nat.min (rd 3780 4 on.length % 64) 32
  ((List.range n).map fun i =>
    let l := on[i]?.getD ⟨0, 0, false⟩
    (⟨readDWord rd (128 + 16 * i) l.ret, rd (136 + 16 * i) 4 l.k, false⟩ : Link)).reverse ++ ls.filter (·.out)

/-- The entries of a data queue, from the places of its data and of its descriptors; one recorded as its load has still to be issued. -/
def readDq (rd : FieldReader) (data desc : Nat) (q : List DqEntry) : List DqEntry :=
  (List.range 8).filterMap fun i =>
    let old := q[i]?
    let e := old.getD ⟨0, 0, true, zeroVec, 0, 0, 0, 0, zeroVec, false⟩
    let o := desc + 32 * i
    let flags := rd o 4 (match old with | some e => 1 + 2 * e.arrived.toNat | none => 0)
    let v := readVReg rd (data + 128 * i) e.placed
    let here := flags.testBit 1
    if flags.testBit 0 then
      some { e with
        arrived := here, reissue := !here, val := if here then v else e.val, index := if here then e.index else v
        word := readWord rd (o + 4) e.word, pword := readWord rd (o + 8) e.pword, mask := readWord rd (o + 12) e.mask, base := readDWord rd (o + 16) e.base }
    else none

/-- A warp from its record (R288). -/
def Warp.readBack (w : Warp) (rd : FieldReader) : Warp :=
  let d := 3840 + 128 * w.w
  let b := rd (d + 5120) 4 ((w.bq.mapIdx fun i o => o.toNat * 2 ^ i).foldl (· + ·) (w.bq.length * 2 ^ 16))
  { w with
    splits := w.splits.mapIdx fun i p => p.readBack rd (32 * i)
    links := readLinks rd w.links, loopHead := readDWord rd 1168 w.loopHead
    vfix := w.vfix.mapIdx fun i v => readVReg rd (1280 + 128 * i) v
    sregs := w.sregs.mapIdx fun i x => readWord rd (3328 + 4 * i) x
    preds := BitVec.ofNat 8 (rd 3712 4 w.preds.toNat)
    masks := w.masks.mapIdx fun i x => if i = 0 then x else readWord rd (3712 + 4 * i) x
    q := w.q.mapIdx fun i x => readDWord rd (3744 + 8 * i) x
    wbase := rd 3776 4 w.wbase % w.w
    ring := w.ring.mapIdx fun i v => if i < w.w then readVReg rd (3840 + 128 * i) v else v
    dq := w.dq.mapIdx fun n q => readDq rd (d + 1024 * n) (d + 4096 + 256 * n) q
    bq := (List.range (b / 2 ^ 16 % 32)).map b.testBit
    rack := w.rack.map fun (r : Rack) => { r with depth := rd (d + 5140) 4 r.depth, off := rd (d + 5144) 8 r.off } }

def Bar.readBack (x : Bar) (rd : FieldReader) (o : Nat) : Bar :=
  { x with mem := readWord rd o x.mem, memSeq := (rd (o + 4) 4 x.memSeq.toNat).testBit 0, gen := readWord rd (o + 8) x.gen, arr := readWord rd (o + 12) x.arr }

/-- A block from its record (R290): the partition where the record holds it. The cluster barriers stay as they are: other blocks' warps have
gone on with them. -/
def Block.readBack (b : Block) (rd : FieldReader) : Block :=
  let q := b.seq
  let fl := rd 26 2 (q.abn.toNat + 2 * q.stopped.toNat + 4 * q.ended.toNat)
  let data := 1440 + 16 * b.slots
  let bits := b.fullBytes
  { b with
    seq := { q with
      pc := readDWord rd 0 q.pc, c := q.c.mapIdx fun i x => BitVec.ofNat 16 (rd (8 + 2 * i) 2 x.toNat), sat := (rd 24 2 q.sat.toNat).testBit 0
      abn := fl.testBit 0, stopped := fl.testBit 1, ended := fl.testBit 2 }
    barrier := b.barrier.mapIdx fun n x => x.readBack rd (64 + 16 * n)
    inbox := if (rd 392 4 b.inbox.isSome.toNat).testBit 0 then some (readDWord rd 384 (b.inbox.getD 0)) else .none
    items := (List.range (Nat.min 256 (rd 400 4 b.items.length))).map fun i => readWord rd (416 + 4 * i) (b.items[i]?.getD 0)
    oslots := b.oslots.map fun o => if o.claimed then { o with hdr := readWord rd (1440 + 16 * o.n) o.hdr, soff := readWord rd (1444 + 16 * o.n) o.soff } else o
    scratch := if b.freed then cellsWrite [] 0 ((List.range b.part).map fun i => BitVec.ofNat 8 (rd (data + i) 1 (cellGet b.scratch i).toNat)) else b.scratch
    full := if b.freed then
        (List.range (b.part / 16)).filter fun g => (rd (data + b.part + g / 8) 1 ((bits[g / 8]?.getD 0).toNat)).testBit (g % 8)
      else b.full }

end Sys2Proof.Machine
end

