-- ==== Sys2Proof/Machine/System.lean ====
section
/-!
DEFINITION. Firmware control words: major 0x39 (R194 to R202, R294). They act for the served context, which is the
context of the handler warp. At another level each raises cause 2 (R58).
-/
namespace Sys2Proof.Machine

/-- `rte` ends the handler (R195, R335). -/
def execRte (s : State) : Host.Outcome State Fault Refusal :=
  privileged s (match s.returnHandler s.core.id true with
    | some t => done (t.endIssue .gone)
    | none => .next (takeTrap (.illegal 10 s.issue.slot) s))

/-! ## `hbcast` (R196) -/

/-- A warp runs for a context at user level: one of its blocks' warps, or its context handler. -/
def State.runsFor (s : State) (ctx : Nat) (k : WKey) : Bool :=
  if k.slot = 4 then (s.getWarp k).any fun w => w.level != .firmware && w.served.any fun v => v.ctx = ctx
  else s.ctxOfBlk k.core k.slot = ctx

/-- No split of a user-level warp of a context holds a port. -/
def State.reported (s : State) (ctx : Nat) : Bool :=
  s.allCores.all fun c => c.ports.toList.all fun p => match p with
    | some (k, _) => !s.runsFor ctx k
    | none => true

/-- The context halts at once; the word completes when every core has reported. -/
def execHbcast (s : State) : Host.Outcome State Fault Refusal :=
  privileged s (
    let t := { s with ctx := { s.ctx with halted := true } }
    if t.reported t.ctx.id then done t else .next (parkOn .retry t))

/-! ## `drain` (R197) -/

/-- The copies of the served context that a drain ends: those in flight when it issued, other than the handler's own. -/
def State.drained (s : State) : List EngOp :=
  s.ops.filter fun o => o.ctx = s.ctx.id && o.key != handlerKey s.core.id && o.kind.isCopy && decide (o.id < s.core.drainFrom)

/-- 2 µs in units of 1/19 ns. -/
def drainWindow : Nat := 38000

/-- The bytes of a log record: 0 completed, 1 cancelled. -/
def EngOp.drainLog (o : EngOp) : List Byte := o.logBytes (if o.cancelled then 1 else 0)

/-- Bytes stored by the issuing warp, in aligned pieces of eight. -/
def storePieces (s : State) : Nat → DWord → List Byte → Res State
  | 0, _, _ => .ok s
  | fuel + 1, va, bs =>
    if bs.isEmpty then .ok s
    else do
      let p ← place s (progAccess s.warp.level false true 0) va 8
      storePieces (s.writePlace p (bs.take 8) false) fuel (va + 8) (bs.drop 8)

/-- The drained copies retire, and the counters of the served warps are 0; those of handlers stay. -/
def State.endDrain (s : State) (ctx : Nat) (ids : List Nat) : State :=
  ({ s with
    ops := (s.ops.filter fun (o : EngOp) => !ids.contains o.id).map fun (o : EngOp) =>
      if o.ctx = ctx && o.key.slot != 4 then { o with cls := .none } else o
    core := { s.core with drainUntil := none, drainFrom := 0 } }).unpark

/-- The window opens at the first execution; the log is written once every copy has ended. -/
def execDrain (a d : BitVec 7) (s : State) : Host.Outcome State Fault Refusal :=
  privileged s (match s.core.drainUntil with
    | none =>
      .next (parkOn .retry { s with core := { s.core with drainUntil := some (s.wall + drainWindow), drainFrom := s.nextId } })
    | some _ =>
      if s.drained.any fun o => !o.done && !o.cancelled then .next (parkOn .retry s)
      else
        finish s do
          let os := s.drained
          let t ← storePieces s (4 * os.length) (s.UD a.toNat) (os.flatMap EngOp.drainLog)
          .ok ((t.endDrain s.ctx.id (os.map fun (o : EngOp) => o.id)).putU latVar d.toNat (BitVec.ofNat 32 os.length)))

/-! ## `wsnap`, `accspl`, `accfil` (R198, R200) -/

def execWsnap (a b : BitVec 7) (p : BitVec 2) (s : State) : Host.Outcome State Fault Refusal :=
  privileged s (finish s do
    let sel := (s.U b.toNat).toNat
    let bytes := s.snapPart s.core.id (sel / 64 % 4) (sel % 64) p.toNat
    let pid := s.nextId
    let t := s.putU latVar b.toNat (BitVec.ofNat 32 bytes.length)
    t.issueOp .cp (.wsnap (s.UD a.toNat).toNat bytes (s.snapBad s.core.id (sel / 64 % 4) p.toNat) b.toNat pid) noCmd)

def execAccspl (p : BitVec 6) (n : BitVec 10) (s : State) : Host.Outcome State Fault Refusal :=
  privileged s (finish s (s.issueOp .ax (.accspl n.toNat (s.UD (2 * p.toNat)).toNat) noCmd))

def execAccfil (p : BitVec 6) (n : BitVec 10) (s : State) : Host.Outcome State Fault Refusal :=
  privileged s (finish s (s.issueOp .ax (.accfil n.toNat (s.UD (2 * p.toNat)).toNat) noCmd))

/-! ## `mapset`, `tlbinv` (R201, R202, R294) -/

/-- The entry may be written: both numbers in range, the physical core enabled, and no block resident on the logical
cluster (R201, R294). -/
def State.mapsetOk (s : State) (logical physical : Nat) : Bool :=
  decide (logical < 640) && decide (physical < 756) &&
    !((s.fab.harvest[physical / 36]?.getD 0).getLsbD (physical % 36)) &&
    s.allBlks.all fun b => b.life != .resident || decide (s.fab.clusterOf b.core ≠ s.fab.clusterOf logical)

/-- An operation has still to access a partition of a core, with the place that its issue checked (R294). -/
def EngOp.onCore (o : EngOp) (core : Nat) : Bool :=
  let on (p : Place) : Bool := match p with | .scratch c _ _ => c = core | _ => false
  !o.done && match o.kind with
    | .gather _ _ ps => ps.any fun p => on p.2
    | .scatter _ _ xs => xs.any fun p => on p.1
    | .catom _ _ _ xs => xs.any fun p => on p.1
    | .feload _ _ _ cells _ => cells.any fun c => c.2.1 = core
    | _ => false

/-- `mapset`: accesses in flight to a partition on the old core complete first (R294). -/
def execMapset (a : BitVec 7) (p : BitVec 3) (s : State) : Host.Outcome State Fault Refusal :=
  privileged s (
    let logical := (s.U a.toNat).toNat % 1024
    let physical := (s.U (a.toNat + 1)).toNat
    if s.mapsetOk logical physical then
      if s.ops.any fun o => o.onCore logical then .next (parkOn .retry s) else
      done (({ s with fab := { s.fab with map := s.fab.map.set logical physical } } : State) |>.putP latVar p.toNat true)
    else done (s.putP latVar p.toNat false))

/-- A gather or scatter that has been translated and not yet performed. -/
def EngOp.translated (o : EngOp) : Bool :=
  !o.done && match o.kind with
    | .gather .. => true
    | .scatter .. => true
    | _ => false

/-- The word completes once no access that may have used a dropped translation is left (R202): every other access is translated and
made in one step. -/
def execTlbinv (a : BitVec 7) (c : BitVec 3) (s : State) : Host.Outcome State Fault Refusal :=
  privileged s (
    let t := s.dropCached c s.ctx.root (s.UD a.toNat)
    if s.ops.any EngOp.translated then .next (parkOn .retry t) else done t)

end Sys2Proof.Machine
end

