-- ==== Sys2Proof/Machine/EngineEvents.lean ====
section
/-!
DEFINITION. What the engines do: results arriving, copies and fills unit by unit, completion and retirement, lauter
contributions, the array's tile writes, and the racking engine (R48, R112, R115, R153 to R168, R198 to R200, R216 to R218,
R236 to R239, R330, R331).
-/
namespace Sys2Proof.Machine

/-! ## Results (R48, R49) -/

/-- RESULT_WRITEBACK: the fixed-latency results that are due are written. -/
def execResultWriteback (k : WKey) (s : State) : Host.Outcome State Fault Refusal :=
  .next (s.onWarp k fun w => w.settle s.clock)

def State.onOp (s : State) (id : Nat) (f : EngOp → EngOp) : State :=
  { s with ops := s.ops.map fun (o : EngOp) => if o.id = id then f o else o }

/-- The result with a number is not known yet: its send, its stream operation, its full-empty load or its `wsnap` has not
ended. -/
def State.unknown (s : State) (id : Nat) : Bool :=
  s.sends.any (fun x => x.id = id) || s.sops.any (fun x => x.1 = id) ||
    s.ops.any fun o => match o.kind with
      | .feload _ _ pid _ _ => pid = id
      | .gather _ pid _ => pid = id
      | .wsnap _ _ _ _ pid => pid = id
      | _ => false

/-! ## Retirement (R239, R197) -/

/-- A drain of the context by a handler other than the warp is in progress: the warp's copies are kept for the log. -/
def State.draining (s : State) (ctx : Nat) (k : WKey) : Bool :=
  s.allCores.any fun c => c.drainUntil.isSome && k != handlerKey c.id && c.handling.any fun v => v.ctx = ctx

/-- The operations left after the finished ones of a warp that no older one of their class precedes have retired. -/
def retired (k : WKey) : List CClass → List EngOp → List EngOp
  | _, [] => []
  | held, o :: r =>
    if o.key != k then o :: retired k held r
    else if o.done && !held.contains o.cls then retired k held r
    else if o.done then o :: retired k held r
    else o :: retired k (if o.cls = .none then held else o.cls :: held) r

/-- What has finished retires, and a block that only waited for it ends (R332). -/
def State.retire (s : State) (k : WKey) (ctx : Nat) : State :=
  if s.draining ctx k then s else ({ s with ops := retired k [] s.ops }).settleEnd k.core k.slot

/-! ## Loads that end later (R15, R48, R112, R115) -/

/-- The values of a load that was not performed at its issue: written to its registers, or in its queue entry. -/
def Warp.loaded (w : Warp) (pid : Nat) (lo hi : VReg) : Warp :=
  ((w.fillPend pid lo hi).deliver pid).mapDq fun q => q.map fun (e : DqEntry) => if e.id = pid then { e with val := lo, arrived := true } else e

/-- A load that consumes poison: its warp is lost, with the packet of the load, or its handler faults (R331, R334). The value of a warp
that is lost already is discarded (R332). -/
def State.loadPoison (s : State) (o : EngOp) (sp : Nat) : State :=
  let s := { s with ops := s.ops.filter fun x => x.id != o.id }
  if (s.getWarp o.key).all (·.exited) then s.settleEnd o.key.core o.key.slot
  else
    let l := s.load o.key o.key.core o.key.slot o.ctx
    let l := { l with issue := { l.issue with sp := sp, pkt := o.pkt } }
    (takeTrap (.poison 0xFFFF 0) l).unload

/-- The places of a load are read, and its operation has completed. -/
def State.finishLoad (s : State) (o : EngOp) (sz pid : Nat) (ps : List (Nat × Place)) : State :=
  let xs := ps.map fun p => (p.1, s.valueAt p.2 sz)
  let s := s.onWarp o.key fun w => w.loaded pid (laneVec xs) (laneVec (xs.map fun x => (x.1, x.2 / 2 ^ 32)))
  (s.onOp o.id fun x => { x with done := true }).retire o.key o.ctx

/-! ## Full-empty loads (R112, R226) -/

/-- A full-empty load whose granules are all full reads them, and with `.fec` clears them. -/
def State.readFull (s : State) (o : EngOp) (sz : Nat) (clear : Bool) (pid : Nat) (cells : List (Nat × Nat × Nat × Nat)) : State :=
  let gs := cells.map fun c => (c.2.1, c.2.2.1, c.2.2.2 / 16)
  if !gs.all s.isFull then s
  else
    let ps : List (Nat × Place) := cells.map fun c => (c.1, Place.scratch c.2.1 c.2.2.1 c.2.2.2)
    if ps.any fun p => s.poisoned p.2 sz then s.loadPoison o o.off
    else (if clear then gs.foldl (fun s g => s.setFull g false) s else s).finishLoad o sz pid ps

/-- LOAD_DATA_ARRIVAL: a VAR result is written, a queue entry's data arrive, or a full-empty load reads. -/
def execLoadDataArrival (k : WKey) (id : Nat) (s : State) : Host.Outcome State Fault Refusal :=
  match s.ops.find? fun o => o.key = k && !o.done && (match o.kind with | .feload _ _ pid _ _ => pid = id | _ => false) with
  | some o =>
    match o.kind with
    | .feload sz clear pid cells _ => .next (s.readFull o sz clear pid cells)
    | _ => .next s
  | none =>
    if s.unknown id then .next s
    else .next (s.onWarp k fun w =>
      let w := if w.pend.any fun p => p.id = id && p.due.isNone then w.deliver id else w
      { w with dq := w.dq.mapIdx fun _ q => q.map fun (e : DqEntry) => if e.id = id then { e with arrived := true } else e })

/-! ## The tile write of an mmac (R126, R166, R168, R330) -/

/-- The rows of an operand that hold a bad scale, logged (R333). -/
def State.logBadScales (s : State) (b : Block) (tile : Nat) (o : OSlot) : State :=
  (List.range 32).foldl (fun s i => if o.badScaleRow i then s.logError 4 0xFF b.core b.ctx tile i else s) s

/-- The two columns that the shadow units compute again for word number n, with the rows that differ in each (R330, assumption 19). -/
def MFlight.shadows (f : MFlight) (tick : Nat) : List (Nat × Word) :=
  [(2 * f.number, Config.shadowRows tick false), (2 * f.number + 1, Config.shadowRows tick true)]

/-- The first flight whose last cycle has come. A shadow column that differs poisons the rows in which it does, and is logged (R330). -/
def State.completeMmac (s : State) (b : Block) (f : MFlight) : State :=
  let x := b.operand f.a
  let y := b.operand f.b
  let s := (s.logBadScales b f.tile x).logBadScales b f.tile y
  let sh := f.shadows s.tick
  let s := sh.foldl (fun s c => if c.2 = 0 then s else s.logError 3 0xFF b.core b.ctx f.tile c.1) s
  let s := { s with tick := s.tick + 1 }
  let (c, b) := mmacWrite (s.getCore b.core) b f (sh.foldl (fun m c => m ||| c.2) 0)
  let rel (b : Block) (n : Nat) : Block := let o := b.oslot n; b.setOslot { o with readers := o.readers - 1 }
  let b := rel b f.a
  let b := if f.a = f.b then b else rel b f.b
  let b := { b with seq := { b.seq with flights := b.seq.flights.drop 1 } }
  ((s.setCore c).setBlk b).settleSlots b.core b.slot

def execMmacComplete (core slot : Nat) (s : State) : Host.Outcome State Fault Refusal :=
  match s.getBlk core slot with
  | none => .next s
  | some b =>
    match b.seq.flights with
    | [] => .next s
    | f :: _ => .next (if f.due ≤ s.clock then s.completeMmac b f else s)

/-! ## Copies, unit by unit (R154 to R157, R198, R200) -/

/-- The bytes an operation moves. -/
def EngOp.total (o : EngOp) (b : Block) : Nat :=
  match o.kind with
  | .cpy _ _ _ _ rows rb _ => rows * rb
  | .cpyr _ _ _ _ len => len
  | .wsnap _ bytes _ _ _ => bytes.length
  | .accspl _ _ => 4096
  | .accfil _ _ => 4096
  | .cpyo _ slot _ _ => let h := (b.oslot slot).hdr; imageBytes h + scaleBytes h
  | _ => 0

def EngOp.access (o : EngOp) (read : Bool) : Access := progAccess o.level read (!read) 2

/-- The place in memory that the unit at the operation's offset is read from or written to. -/
def EngOp.farPlace (o : EngOp) (s : State) (read : Bool) (a : Nat) (n : Nat) : Res Place :=
  place s (o.access read) (BitVec.ofNat 64 a) n

/-- The unit's destination, for an operation that writes memory, a partition or the cellar. -/
def EngOp.dest (o : EngOp) (s : State) (off : Nat) : Res Place :=
  match o.kind with
  | .cpy put far near cellar _ rb stride =>
    if put then o.farPlace s false (far + off / rb * stride + off % rb) 16
    else .ok (if cellar then .cellar (near + off) else .scratch o.key.core o.key.slot (near + off))
  | .cpyr la ra _ put _ => o.farPlace s false ((if put then ra else la) + off) 16
  | .wsnap a _ _ _ _ => o.farPlace s false (a + off) 16
  | .accspl _ a => o.farPlace s false (a + off) 16
  | _ => .error (.wait .retry)

/-- The operation is a `cpyr` between this module and another one. -/
def EngOp.peer (o : EngOp) (s : State) : Bool :=
  match o.kind with
  | .cpyr _ _ module _ _ => module != s.fab.homeModule
  | _ => false

/-- A translation on the remote side suspends or cancels the copy (R157, assumption 12). -/
def EngOp.remoteSide (o : EngOp) (s : State) (off : Nat) : Res Unit :=
  match o.kind with
  | .cpyr _ ra _ _ _ =>
    let f := if o.peer s then Config.remoteFault s.tick off else 0
    if f = 1 then .error (.wait .retry) else if f = 2 then .error (.trap (.address (BitVec.ofNat 64 (ra + off)))) else .ok ()
  | _ => .ok ()

/-- Bytes and poison of the unit at an offset, for those operations. -/
def EngOp.source (o : EngOp) (s : State) (off : Nat) : Res (List Byte × Bool) :=
  let at' (p : Place) : List Byte × Bool := (s.readPlace p 16, s.poisoned p 16)
  match o.kind with
  | .cpy put far near cellar _ rb stride => do
    if put then .ok (at' (if cellar then .cellar (near + off) else .scratch o.key.core o.key.slot (near + off)))
    else
      let p ← o.farPlace s true (far + off / rb * stride + off % rb) 16
      .ok (at' p)
  | .cpyr la ra module put _ => do
    if module = s.fab.homeModule || put then
      let p ← o.farPlace s true ((if put then la else ra) + off) 16
      .ok (at' p)
    else .ok ((List.range 16).map fun i => Config.remoteByte s.tick (off + i), false)
  | .wsnap _ bytes bad _ _ => .ok ((bytes.drop off).take 16, bad.contains off)
  | .accspl tile _ => .ok (((vregBytes (s.core.accRow tile (off / 128))).drop (off % 128)).take 16, false)
  | _ => .ok ([], false)

/-- The operation writes nothing on this module: a `cpyr` put to a peer. -/
def EngOp.away (o : EngOp) (s : State) : Bool :=
  match o.kind with
  | .cpyr _ _ module put _ => put && module != s.fab.homeModule
  | _ => false

/-- The destinations of every unit of a copy. -/
def EngOp.dests (o : EngOp) (s : State) (total : Nat) : List (Nat × Place) :=
  (List.range ((total + 15) / 16)).filterMap fun j => match o.dest s (16 * j) with | .ok p => some (16 * j, p) | .error _ => none

/-- A copy whose units together write all 64 bytes of a line clears its poison (R331). -/
def EngKind.clears : EngKind → Bool
  | .cpy .. => true
  | .cpyr .. => true
  | _ => false

/-- The poison of the line that a unit is written to: set where the unit carries poison, and cleared once the copy has written all of
the line and carried none into it (R331). -/
def State.unitPoison (s : State) (o : EngOp) (q : Place) (bad : Bool) : State :=
  let u := q.unit.1
  if bad then s.setPoison u true
  else if !o.kind.clears || !s.poisoned q 16 then s
  else
    let ds := (o.dests s (o.off + 16)).filter fun d => d.2.unit.1 = u
    if decide (coverage u (ds.map fun d => (d.2, 16)) ≥ 64) && !ds.any (fun d => o.bad.contains d.1) then s.setPoison u false else s

/-- One unit moved; a `cpy` sets the granule that it writes full (R225). -/
def moveUnit (s : State) (o : EngOp) : Res (State × EngOp) := do
  o.remoteSide s o.off
  let (bytes, bad) ← o.source s o.off
  let o' := { o with off := o.off + bytes.length, bad := if bad then o.bad ++ [o.off] else o.bad }
  if o.away s then .ok (s, o')
  else
    let q ← o.dest s o.off
    waitFor (s.writable [(0, q)]) .retry
    let t := (s.writePlace q bytes false).unitPoison o q bad
    .ok ((match o.kind, q.granule with | .cpy .., some g => t.setFull g true | _, _ => t), o')

/-- Four elements of a tile row replaced. -/
def rowWith (old : VReg) (at' : Nat) (bs : List Byte) : VReg :=
  Vector.ofFn fun i => if at' ≤ 4 * i.val ∧ 4 * i.val < at' + bs.length then BitVec.ofNat 32 (leNat ((bs.drop (4 * i.val - at')).take 4)) else old[i]

/-- One unit of `accfil`. -/
def fillUnit (s : State) (o : EngOp) (tile a : Nat) : Res (State × EngOp) := do
  let p ← o.farPlace s true (a + o.off) 16
  let row := rowWith (s.core.accRow tile (o.off / 128)) (o.off % 128) (s.readPlace p 16)
  .ok ({ s with core := s.core.setAccRow tile (o.off / 128) row }, { o with off := o.off + 16 })

/-- The rows of an image or scale side that bytes [a, a + n) belong to. -/
def rowsOf (rb a n : Nat) : Word :=
  (List.range 32).foldl (fun m i => if decide (i * rb < a + n) && decide (a < (i + 1) * rb) then m ||| (1#32 <<< i) else m) 0

/-- Bytes of memory one by one, with their poison: no alignment is asked for. -/
def EngOp.farBytes (o : EngOp) (s : State) (a : DWord) : Nat → Res (List Byte × Bool)
  | 0 => .ok ([], false)
  | n + 1 => do
    let p ← o.farPlace s true a.toNat 1
    let (bs, bad) ← EngOp.farBytes o s (a + 1) n
    .ok (s.readPlace p 1 ++ bs, s.poisoned p 1 || bad)

/-- One unit of `cpyo`: the image, then the scale side, which R156 does not align. The rows' poison stands with the slot that names the
operand (assumption 98). -/
def slotUnit (s : State) (o : EngOp) (src slot stride : Nat) : Res (State × EngOp) := do
  let x := s.blk.oslot slot
  let rb := imageBytes x.hdr / 32
  let img := imageBytes x.hdr
  let inImage := decide (o.off < img)
  let (bs, bad) ← (if inImage then
      (o.farPlace s true (src + o.off / rb * (if stride = 0 then rb else stride) + o.off % rb) 16).map fun p => (s.readPlace p 16, s.poisoned p 16)
    else o.farBytes s (BitVec.ofNat 64 src + x.soff.signExtend 64 + BitVec.ofNat 64 (o.off - img)) 16)
  let b := if inImage then
      let rows := rowsOf rb o.off 16
      let first := if o.off % rb = 0 then rows else 0
      (s.blk.setOslot { x with badRows := (x.badRows &&& ~~~first) ||| (if bad then rows else 0) }).writeImg slot o.off bs
    else
      s.blk.setOslot { x with
        scl := cellsWrite x.scl (o.off - img) bs
        badRows := x.badRows ||| (if bad then rowsOf (scaleBytes x.hdr / 32) (o.off - img) 16 else 0) }
  .ok ({ s with blk := b }, { o with off := o.off + 16 })

def copyUnit (s : State) (o : EngOp) : Res (State × EngOp) :=
  match o.kind with
  | .accfil tile a => fillUnit s o tile a
  | .cpyo src slot _ stride => slotUnit s o src slot stride
  | _ => moveUnit s o

/-- Units moved until the end, or until one stops. -/
def copyRun (o : EngOp) : Nat → State → State × EngOp × Option Stop
  | 0, s => (s, o, none)
  | n + 1, s =>
    match copyUnit s o with
    | .ok (s', o') => copyRun o' n s'
    | .error e => (s, o, some e)

/-! ## The ends of an operation -/

/-- `sb` of a `wsnap` receives the bytes written (R198, R199). -/
def State.snapResult (s : State) (o : EngOp) : State :=
  match o.kind with
  | .wsnap _ _ _ _ pid => s.deliver o.key pid (BitVec.ofNat 32 o.off)
  | _ => s

/-- The completion bits of a fill (R162, R163). -/
def OSlot.complete (x : OSlot) (data scale : Bool) : OSlot :=
  { x with data := x.data || (data && x.claimed), scale := x.scale || (scale && x.claimed) }

/-- A finished operation: its effects at the end, and retirement. -/
def State.finishOp (s : State) (o : EngOp) : State :=
  let s := s.onOp o.id fun _ => { o with done := true }
  let s := match o.kind with
    | .cpyo _ slot _ _ => { s with blk := s.blk.setOslot ((s.blk.oslot slot).complete true (isMx (s.blk.oslot slot).hdr)) }
    | _ => s
  let s := (s.snapResult o).settleSlots o.key.core o.key.slot
  s.retire o.key o.ctx

def EngKind.resultReg : EngKind → Option Nat
  | .wsnap _ _ _ reg _ => some reg
  | _ => none

/-- A cancelled operation retires at once, unless a drain keeps it for its log; its fault waits for the covering `waitc`
(R155, R199). -/
def State.cancelOp (s : State) (o : EngOp) (va : Option DWord) : State :=
  let s := match va with
    | some a => s.onWarp o.key fun w => { w with copyFault := w.copyFault ++ [(⟨o.cls, a, o.kind.resultReg⟩ : CopyFault)] }
    | none => s
  let s := s.snapResult o
  let s := if s.draining o.ctx o.key then s.onOp o.id fun _ => { o with cancelled := true, token := none }
    else { s with ops := s.ops.filter fun x => x.id != o.id }
  (s.settleSlots o.key.core o.key.slot).retire o.key o.ctx

/-- A copy that stopped: it waits, it is suspended by a replayable fault, or it is cancelled (R155, R199). -/
def State.stopOp (s : State) (o : EngOp) (e : Stop) : State :=
  match e with
  | .wait _ => s.onOp o.id fun _ => o
  | .trap (.miss va a acc) =>
    if o.level = .firmware then s.cancelOp o (some va)
    else
      let t := s.raiseFault o.ctx o.key.core o.wslot a 0 acc va (some (.op o.id))
      t.onOp o.id fun _ => { o with token := some s.nextId }
  | .trap (.protect va a k acc) =>
    (if o.level = .firmware then s else s.raiseFault o.ctx o.key.core o.wslot a k acc va none).cancelOp o (some va)
  | .trap (.address va) => s.cancelOp o (some va)
  | .trap _ => s.cancelOp o (some 0)

/-- The chunk of an `ofill` (R163). -/
def Block.fillChunk (b : Block) (slot chunk : Nat) (sc final : Bool) (mask : Word) (v : VReg) : Block :=
  let x := b.oslot slot
  let bytes (l : Fin 32) : Nat × List Byte := (128 * chunk + 4 * l.val, leBytes 4 v[l].toNat)
  if sc then b.setOslot (({ x with scl := (lanesOf mask).foldl (fun m l => cellsWrite m (bytes l).1 (bytes l).2) x.scl } : OSlot).complete false final)
  else
    let rb := imageBytes x.hdr / 32
    let rows := (lanesOf mask).foldl (fun m l => m ||| rowsOf rb (bytes l).1 4) 0#32
    (lanesOf mask).foldl (fun b l => b.writeImg slot (bytes l).1 (bytes l).2)
      (b.setOslot (({ x with badRows := x.badRows &&& ~~~rows } : OSlot).complete final false))

/-- The operation may be performed now (R156, R162, R200, R228). -/
def State.opReady (s : State) (o : EngOp) : Bool :=
  !o.done && !o.cancelled && o.token.isNone && decide (o.key.core < 1024) &&
    match o.kind with
    | .cpyo _ slot _ _ => slotReady slot
    | .ofill slot _ _ _ _ _ => slotReady slot
    | .accspl _ _ => storeReady
    | .accfil _ _ => storeReady
    | .msend id => !s.sends.any fun x => x.id = id
    | .scatter _ _ xs => s.writable (xs.map fun x => (0, x.1))
    | .feload .. => false
    | .fold .. => false
    | .cpyr _ _ module _ _ => s.reaches module
    | _ => true
where
  /-- No mmac reads the slot, and what the warp issued before for the slot has taken effect. -/
  slotReady (slot : Nat) : Bool :=
    match s.getBlk o.key.core o.key.slot with
    | none => true
    | some b =>
      let x := b.oslot slot
      x.readers = 0 && (!twoSlots x.hdr || (b.oslot (slot + 1)).readers = 0) && !s.filling o.key.core o.key.slot slot (some o.key) o.id && !x.events.any fun e => decide (e.id < o.id)
  /-- No matrix work and no older accumulator transfer is in flight on the core. -/
  storeReady : Bool :=
    (s.allBlks.all fun b => b.core != o.key.core || b.seq.flights.isEmpty) &&
      s.ops.all fun x => x.key.core != o.key.core || decide (x.id ≥ o.id) || x.done ||
        (match x.kind with | .accrd => false | .accwr => false | .accspl _ _ => false | .accfil _ _ => false | _ => true)

/-- The records of an agent are loaded for `f`; records of an agent that has gone are dropped again. -/
def State.asAgent (s : State) (k : WKey) (ctx : Nat) (f : State → State) : State :=
  let hadW := (s.getWarp k).isSome
  let hadB := (s.getBlk k.core k.slot).isSome
  let hadC := (s.getCtx ctx).isSome
  let t := (f (s.load k k.core k.slot ctx)).unload
  { t with
    issue := Issue.none
    warps := if hadW then t.warps else t.warps.filter fun w => w.key != k
    blks := if hadB then t.blks else t.blks.filter fun b => !(b.core = k.core && b.slot = k.slot)
    ctxs := if hadC then t.ctxs else t.ctxs.filter fun c => c.id != ctx }

def State.asIssuer (s : State) (o : EngOp) (f : State → State) : State := s.asAgent o.key o.ctx f

/-- The peer of a `cpyr` has been fenced (R157, R340). -/
def EngOp.fenced (o : EngOp) (s : State) : Bool :=
  match o.kind with
  | .cpyr _ _ module _ _ => s.fab.revoked.contains module || (module != s.fab.homeModule && s.fab.revoked.contains s.fab.homeModule)
  | _ => false

/-- An operation performed by its engine. -/
def performOp (o : EngOp) (s : State) : State :=
  match o.kind with
  | .ofill slot chunk sc final mask v =>
    { s with blk := s.blk.fillChunk slot chunk sc final mask v }.finishOp { o with off := 4 * popc mask.toNat 32 }
  | .gather sz pid ps =>
    if ps.any fun p => s.poisoned p.2 sz then s.unload.loadPoison o o.off else s.finishLoad o sz pid ps
  | .scatter sz fs xs => (s.storeLanes sz fs xs).finishOp o
  | .line op a mask v => (s.lineElts op a mask v).finishOp o
  | .catom sz op ty xs => (xs.foldl (fun (t : State) x => (t.atomicAt x.1 sz op ty x.2.1 x.2.2).1) s).finishOp o
  | _ =>
    let total := o.total s.blk
    if o.fenced s then s.cancelOp o (some (BitVec.ofNat 64 o.off))
    else
      let (t, o', e) := copyRun o ((total - o.off + 15) / 16) s
      let t := { t with tick := t.tick + 1 }
      match e with
      | none => t.finishOp { o' with off := total }
      | some e => t.stopOp o' e

/-- ENGINE_OP_COMPLETE. -/
def execEngineOpComplete (id : Nat) (s : State) : Host.Outcome State Fault Refusal :=
  match s.ops.find? fun o => o.id = id with
  | none => .next s
  | some o => .next (if s.opReady o then s.asIssuer o (performOp o) else s)

/-- COPY_RESUME: a suspended copy goes on once its resume token has been handed back (R155, R297). -/
def execCopyResume (id : Nat) (s : State) : Host.Outcome State Fault Refusal :=
  match s.ops.find? fun o => o.id = id with
  | none => .next s
  | some o =>
    match o.token with
    | none => .next s
    | some t => .next (if s.fu.recs.any fun r => r.token = t then s else s.onOp id fun o => { o with token := none })

/-! ## Lauter contributions (R121, R123, R236, R237) -/

/-- One lane of an operation that reached an open cell: the cell after it, and whether the lane is held. Once the cell has completed,
every key of it has arrived or been abandoned, or lies beyond its count. -/
def CLine.lane (l : CLine) (k : Option WKey) (group key : Nat) (v : Option Word) : CLine × Bool :=
  if l.st != 1 then (if (l.st = 2 || l.st = 3) && v.isSome then { l with kerr := true } else l, false)
  else
    let bound := l.owners.any fun o => o.1 = group
    if !bound && decide (l.owners.length ≥ 64) then ({ l with kerr := true }, false)
    else
      let l := if bound then l else { l with owners := l.owners ++ [(group, k)] }
      if v.isSome && decide (key < l.count) && decide (key ≥ l.next + 64) && !l.present key then (l, true)
      else (l.take key v, false)

/-- The lanes of an operation, in increasing order: the cell, and the lanes still held. -/
def lauterLanes (k : Option WKey) (group : Nat) (abandon : Bool) (v : VReg) : List (Fin 32) → CLine → CLine × Word
  | [], l => (l, 0)
  | i :: r, l =>
    let (l', h) := l.lane k group (group * 32 + i.val) (if abandon then none else some v[i])
    let (l', held) := lauterLanes k group abandon v r l'
    (l', if h then held ||| (1#32 <<< i.val) else held)

/-- An operation that reaches a line: one that is not open takes nothing of it, and a completed one notes the stray (R234). -/
def CLine.reach (l : CLine) (found : Bool) (k : Option WKey) (group : Nat) (abandon : Bool) (lanes : Word) (v : VReg) : CLine × Word :=
  if found || l.st = 1 then lauterLanes k group abandon v (lanesOf lanes) l
  else (if l.st = 2 || l.st = 3 then { l with stray := true } else l, 0)

/-- The owner of the groups that a warp's operation binds: none once the warp has ended (R237). -/
def State.binder (s : State) (k : WKey) : Option WKey := if (s.getWarp k).any (·.exited) then none else some k

/-- LAUTER_CONTRIBUTION: the bank takes what it can of a `cfaddo` or `cabandon`. -/
def execLauterContribution (id : Nat) (s : State) : Host.Outcome State Fault Refusal :=
  match s.ops.find? fun o => o.id = id && !o.done with
  | none => .next s
  | some o =>
    match o.kind with
    | .fold abandon line group lanes v found =>
      let l := s.cline line
      let (l', held) := l.reach found (s.binder o.key) group abandon lanes v
      let s := if l' = l then s else s.syncCell l' (l.st = 1)
      .next ((s.onOp id fun _ => { o with kind := .fold abandon line group held v true, done := decide (held = 0) }).retire o.key o.ctx)
    | _ => .next s

/-! ## The racking engine (R215 to R218) -/

/-- The ring index of the lowest register of the frame at a depth, counted from 1 for the oldest. -/
def Warp.frameBase (w : Warp) (depth : Nat) : Nat :=
  let newer := (w.links.take (w.links.length + 1 - depth)).foldl (fun a l => a + l.k) 0
  (w.wbase + w.w * (newer / w.w + 1) - newer) % w.w

/-- The split that waits for room for a call, with its K. -/
def Warp.callWait (w : Warp) : Option (Nat × Nat) :=
  (List.range 4).findSome? fun i => match (w.splitAt i).st, (w.splitAt i).wait with | .live, some (.callRoom k) => some (i, k) | _, _ => .none

/-- A split waits for its frame. -/
def Warp.retWait (w : Warp) : Bool := w.splits.toList.any fun p => p.wait = some .retFrame

/-- The oldest resident frame: its depth and K. -/
def Warp.oldestResident (w : Warp) : Option (Nat × Nat) :=
  (w.links.reverse.mapIdx fun i l => (i + 1, l)).findSome? fun x => if x.2.out then .none else some (x.1, x.2.k)

/-- The newest spilled frame. -/
def Warp.newestSpilled (w : Warp) : Option (Nat × Nat) :=
  (w.links.mapIdx fun i l => (w.links.length - i, l)).findSome? fun x => if x.2.out then some (x.1, x.2.k) else .none

/-- The spill that the engine would start (R215, R216). -/
def Warp.spillNext (w : Warp) : Option Rack :=
  if w.rack.isSome then .none
  else
    let oldest : Option Rack := w.oldestResident.map fun x => ⟨true, x.1, x.2, 0, .none, .none⟩
    match w.callWait with
    | some (sp, k) =>
      if k + 48 > w.w then (if w.rackDone.isSome then .none else some ⟨true, w.links.length + 1, k, 0, some sp, .none⟩)
      else if w.occupancy + k > w.w then oldest
      else if w.occupancy > w.w - 16 then oldest else .none
    | .none => if w.occupancy > w.w - 16 then oldest else .none

/-- The refill that the engine would start. -/
def Warp.refillNext (w : Warp) : Option Rack :=
  if w.rack.isSome then .none
  else
    match w.newestSpilled with
    | .none => .none
    | some (d, k) =>
      if w.occupancy + k ≤ w.w - 16 || (w.retWait && d = w.links.length) then some ⟨false, d, k, 0, .none, .none⟩ else .none

def execRackingSpill (k : WKey) (s : State) : Host.Outcome State Fault Refusal :=
  .next (s.onWarp k fun w => match w.spillNext with | some r => { w with rack := some r } | none => w)

def execRackingRefill (k : WKey) (s : State) : Host.Outcome State Fault Refusal :=
  .next (s.onWarp k fun w => match w.refillNext with | some r => { w with rack := some r } | none => w)

/-- The bytes of a cask record (R217). -/
def Warp.frameBytes (w : Warp) (r : Rack) : List Byte :=
  let base := if r.own.isSome then w.wbase else w.frameBase r.depth
  let ret := match r.own with
    | some sp => (w.splitAt sp).pc + 12
    | .none => match w.links[w.links.length - r.depth]? with | some l => l.ret | .none => 0
  leBytes 8 ret.toNat ++ leBytes 4 r.k ++ leBytes 4 0 ++
    (List.range r.k).flatMap fun i => vregBytes (w.ring[(base + i) % w.w]?.getD zeroVec)

/-- The cask's accesses: with the cask attribute, by the racking engine, which runs at no user level (R218, R296). -/
def caskAccess (read : Bool) : Access := { read := read, write := !read, fetch := false, user := false, cask := true, agent := 3 }

/-- Four lanes of a frame's register replaced by bytes at an offset of the record. -/
def Warp.refillUnit (w : Warp) (base off : Nat) (bs : List Byte) : Warp :=
  let i := (base + (off - 16) / 128) % w.w
  { w with ring := w.ring.setIfInBounds i (rowWith (w.ring[i]?.getD zeroVec) ((off - 16) % 128) bs) }

/-- Units of a transfer: the loaded warp's frame to or from its record; where it stopped. -/
def rackRun (r : Rack) (bytes : List Byte) (base : Nat) : Nat → Nat → State → State × Nat × Option Stop
  | 0, off, s => (s, off, none)
  | n + 1, off, s =>
    match translate s s.ctx.root (caskAccess (!r.spill)) (s.warp.cask + (r.depth - 1) * 6160 + off) with
    | .error e => (s, off, some e)
    | .ok (pa, key) =>
      if r.spill && s.writeBlocked pa then (s, off, some (.wait .retry))
      else
        let s := if r.spill then s.writeMem key pa ((bytes.drop off).take 16)
          else if off = 0 then s
          else { s with warp := s.warp.refillUnit base off (s.readMem key pa 16) }
        rackRun r bytes base n (off + 16) s

/-- The frame's link entry leaves or comes back on chip; a call's own frame waits for the call (R215). -/
def Warp.rackEnd (w : Warp) (r : Rack) : Warp :=
  let w := { w with rack := w.rackNext, rackNext := .none }
  if r.own.isSome then (if r.spill then { w with rackDone := r.own } else w)
  else { w with links := w.links.mapIdx fun i l => if i = w.links.length - r.depth then { l with out := r.spill } else l }

/-- The transfer of the loaded warp runs to its end, is suspended, or faults: a protection fault on the cask is fatal
(R218). -/
def State.rackStep (s : State) (r : Rack) : State :=
  let base := if r.own.isSome then s.warp.wbase else s.warp.frameBase r.depth
  let (t, off, e) := rackRun r (s.warp.frameBytes r) base ((16 + 128 * r.k - r.off) / 16) r.off s
  match e with
  | none => { t with warp := t.warp.rackEnd r }
  | some (.wait _) => { t with warp := { t.warp with rack := some { r with off := off } } }
  | some (.trap (.miss va a acc)) =>
    let u := t.raiseFault t.ctx.id t.core.id t.warp.wslot a 0 acc va (some (.rack t.warp.key))
    { u with warp := { u.warp with rack := some { r with off := off, token := some t.nextId } } }
  | some (.trap e) =>
    let sp := ((List.range 4).find? fun i => (t.warp.splitAt i).st = .live).getD 0
    let t := { t with issue := { t.issue with sp := sp, pkt := (t.warp.splitAt sp).pc }, warp := { t.warp with rack := t.warp.rackNext, rackNext := none } }
    takeTrap e t

/-- The transfer's resume token has been handed back, or it never had one. -/
def State.rackFreeToGo (s : State) (r : Rack) : Bool :=
  match r.token with
  | none => true
  | some t => !s.fu.recs.any fun x => x.token = t

/-- A result in flight is to be written to a register of the frame that a transfer spills. -/
def Warp.frameBusy (w : Warp) (r : Rack) : Bool :=
  let base := if r.own.isSome then w.wbase else w.frameBase r.depth
  r.spill && (List.range r.k).any fun i => w.pend.any fun p => p.dest = .vr ((base + i) % w.w)

def execRackingTransferDone (k : WKey) (s : State) : Host.Outcome State Fault Refusal :=
  match s.getWarp k with
  | none => .next s
  | some w =>
    match w.rack with
    | none => .next s
    | some r =>
      if s.rackFreeToGo r && !w.frameBusy r then
        .next (((s.load k k.core k.slot (s.ctxOfBlk k.core k.slot)).rackStep { r with token := none }).unload)
      else .next s

end Sys2Proof.Machine
end

