-- ==== Sys2Proof/Machine/HostEvents.lean ====
section
/-!
DEFINITION. The hub's events: sends, messages and bounce pages resolved (R174, R190, R279, R298), stream operations
(R301), host commands on the host pages (R280 to R282), host threads, and the name flush (R275, R277).
-/
namespace Sys2Proof.Machine

/-! ## The answer to a send (R174, R280) -/

/-- A host command is done: STATUS, then GO is cleared. -/
def State.hostAnswer (s : State) (addr : Nat) (st : Word) : State :=
  let s := s.wrN (addr + 4) 4 st.toNat
  s.wrN addr 4 (s.rdN addr 4 % 2 ^ 31)

def SendOp.isPlace : SendOp → Bool
  | .place .. => true
  | _ => false

/-- A send's status is written, and its admission slot is free. A `place` of a host page keeps its turn among the commands until then
(R285). -/
def State.answer (s : State) (x : Send) (st : Word) : State :=
  let s := { s with
    sends := s.sends.filter fun y => y.id != x.id
    hostq := if x.op.isPlace then s.hostq.filter fun h => some h.addr != x.host else s.hostq }
  match x.host, x.key with
  | some a, _ => s.hostAnswer a st
  | none, some k => s.deliver k x.id st
  | none, none => s

/-- The answer of another module reaches the sender. -/
def State.answerRemote (s : State) (x : Send) : State :=
  if s.routed x.name then { (s.answer x (s.remoteAnswer x.name)) with tick := s.tick + 1 } else s

/-! ## `place` (R281) -/

/-- The block that holds a warp: resident, or saved, as its record holds it. -/
def State.blockOf (s : State) (name : DWord) : Option Block :=
  match s.allWarps.find? fun w => w.name = name && w.level = .user && !w.exited with
  | some w => s.getBlk w.key.core w.key.slot
  | none => (s.saved.find? fun v => v.warps.any fun w => w.name = name).map fun v => v.blk.readBack (s.fields v.blk.ctx v.blk.area)

/-- A block's new state, wherever it is; a saved block's partition image follows in its save record. -/
def State.putBlock (s : State) (name : DWord) (b : Block) : State :=
  if s.allWarps.any fun w => w.name = name && w.level = .user && !w.exited then s.setBlk b
  else
    let s := { s with saved := s.saved.map fun (v : Saved) => if v.warps.any fun (w : Warp) => w.name = name then { v with blk := b } else v }
    s.storePool b.ctx b.area (s.blockRecord b b.freed)

/-- Bytes placed in a partition: granules full, and poison as a copy leaves it (R225, R331). -/
def Block.placeBytes (b : Block) (off : Nat) (bs : List Byte) (bad : List Bool) : Block :=
  let units := List.range (bs.length / 16)
  let full := units.foldl (fun f i => insertNat (off / 16 + i) f) b.full
  let covered := ((List.range (bs.length / 64 + 2)).map fun i => off / 64 + i).filter fun l => decide (off ≤ 64 * l) && decide (64 * l + 64 ≤ off + bs.length)
  let dirty := (units.filter fun i => bad[i]?.getD false).map fun i => (off + 16 * i) / 64
  { b with
    scratch := cellsWrite b.scratch off bs, full := full
    spoison := (dirty ++ b.spoison.filter fun l => !covered.contains l).eraseDups }

/-- A slot's record once bytes have been placed in its image, as by a completed final `ofill`. -/
def OSlot.placed (x : OSlot) (len : Nat) (bad : List Bool) : OSlot :=
  let rb := imageBytes x.hdr / 32
  let dirty := (List.range (len / 16)).foldl (fun m i => if bad[i]?.getD false then m ||| rowsOf rb (16 * i) 16 else m) 0#32
  { x.stampBy 0 with data := true, badRows := (x.badRows &&& ~~~(rowsOf rb 0 len)) ||| dirty }

/-- Bytes placed in the image that a slot names (R32). -/
def Block.placeSlot (b : Block) (n : Nat) (bs : List Byte) (bad : List Bool) : Block :=
  let b := b.setOslot ((b.oslot n).placed bs.length bad)
  let b := b.writeImg n 0 (bs.take 2048)
  if bs.length > 2048 then b.writeImg n 2048 (bs.drop 2048) else b

/-- The placement of bytes at D in a target block: a status, and the block when it changes; none while an mmac reads the slot. -/
def placeIn (b : Block) (d : Nat) (bs : List Byte) (bad : List Bool) : Option (Word × Option Block) :=
  if d ≥ 2 ^ 31 then
    let n := d % 256
    let x := b.oslot n
    if decide (n ≥ b.slots) || b.partner n || !x.valid || decide (bs.length > imageBytes x.hdr) then some (stAbsent, none)
    else if x.readers > 0 then none
    else some (stOk, some (b.placeSlot n bs bad))
  else if d % 16 != 0 || decide (d + bs.length > b.part) then some (stAbsent, none)
  else some (stOk, some (b.placeBytes d bs bad))

/-- Why the hub cannot write a range of a context's memory: the fault of its first page that fails. -/
def State.poolFault (s : State) (ctx va n : Nat) : Option Trap :=
  let root := ((s.getCtx ctx).map (·.root)).getD 0
  (pagesOf va n).findSome? fun p => match translate s root { poolAccess with agent := 5 } (Nat.max va (4096 * p)) with
    | .error (.trap t) => some t
    | _ => none

/-- What keeps a `place` out of a saved block whose partition stands in its record in the save pool (R288, R298). -/
def State.placeFault (s : State) (b : Block) (d n : Nat) : Option Trap :=
  if b.life != .saved || !b.freed then none
  else if d ≥ 2 ^ 31 then s.poolFault b.ctx (b.area + 1440 + 16 * (d % 256)) 16
  else s.poolFault b.ctx (b.area + 1440 + 16 * b.slots + d) n

/-- The bytes of a `place` wait in bounce pages, and its sender has its status (R298). -/
def State.bouncePlace (s : State) (x : Send) : State :=
  if x.host.isNone then s
  else
    let t := s.answer x stOk
    { t with sends := t.sends ++ [{ x with host := none }] }

/-- A `place` at its target: done, refused, held while an mmac reads the slot, or in bounce pages while an absent page of the save
pool is served (R298, assumption 14). -/
def State.resolvePlace (s : State) (x : Send) (d : Nat) (bs : List Byte) (bad : List Bool) : State :=
  match s.entry x.name with
  | none => s.answer x stAbsent
  | some e =>
    if e.st = 5 then s.answer x stDead
    else if s.fu.recs.any fun r => r.who = some (.bounce x.id) then s
    else
      match (if e.st = 1 || e.st = 2 || e.st = 3 then s.blockOf x.name else none) with
      | none => s.answer x stAbsent
      | some b =>
        match placeIn b d bs bad with
        | none => s
        | some (st, none) => s.answer x st
        | some (st, some b') =>
          let unit := (Config.recordField s.tick 4).toNat % 256
          match s.placeFault b d bs.length with
          | none =>
            if b.life = .saved && !s.reserveRoom (s.poolPages b.ctx b.area (b.areaSize b.freed)) then s else (s.putBlock x.name b').answer x st
          | some (.miss va a acc) => (s.raiseFault b.ctx 0xFFFF unit a 0 acc va (some (.bounce x.id))).bouncePlace x
          | some (.protect va a k acc) => (s.raiseFault b.ctx 0xFFFF unit a k acc va none).answer x stAbsent
          | some _ => s.answer x stAbsent

/-! ## Sends (R174, R190, R279, R340) -/

/-- A send resolved at its target; a target in TRANSIT holds it. -/
def State.resolveSend (s : State) (x : Send) : State :=
  if s.remote x.name then s.answerRemote x
  else
    match x.op with
    | .place d bs bad => s.resolvePlace x d bs bad
    | op =>
      match s.resolve x.name op x.anyGen x.gen x.domain with
      | none => s
      | some (st, t) => t.answer x st

/-- SEND_RESOLVE: a name operation, or a stream operation that none of its warp must precede (R301). -/
def execSendResolve (id : Nat) (s : State) : Host.Outcome State Fault Refusal :=
  match s.sends.find? fun x => x.id = id && !x.op.isMsg with
  | some x => .next (s.resolveSend x)
  | none =>
    match s.sops.find? fun x => x.1 = id with
    | none => .next s
    | some (_, k, c, op) =>
      if (s.sops.takeWhile fun x => x.1 != id).any fun x => x.2.1 = k && x.2.2.2.ordered op then .next s
      else
        match s.resolveStream c op with
        | none => .next s
        | some (st, t) => .next ({ t with sops := t.sops.filter fun x => x.1 != id }.deliver k id st)

/-- MESSAGE_DELIVERY: a message or a `place` made, or refused, at its target. -/
def execMessageDelivery (id : Nat) (s : State) : Host.Outcome State Fault Refusal :=
  match s.sends.find? fun x => x.id = id && x.op.isMsg with
  | some x => .next (s.resolveSend x)
  | none => .next s

/-- The receipt of a bounced message, added without the checks of its admission (assumption 105). -/
def State.endBounce (s : State) (b : Bounce) (st : Word) (len : Nat) : State :=
  let s := { s with bounces := s.bounces.filter fun x => x.id != b.id }
  (s.addReceipt b.name ⟨b.post.id, st, BitVec.ofNat 32 len, b.tag, b.domain⟩).presentHost b.name

/-- BOUNCE_PLACEMENT: the bytes go from the bounce pages to the buffer once the fault has been served (R298). -/
def execBouncePlacement (id : Nat) (s : State) : Host.Outcome State Fault Refusal :=
  match s.bounces.find? fun b => b.id = id with
  | none => .next s
  | some b =>
    if s.fu.recs.any fun r => r.who = some (.bounce id) then .next s
    else
      let root := ((s.getCtx b.ctx).map (·.root)).getD 0
      match storeBytes s root 4 b.post.addr.toNat b.bytes with
      | .ok t =>
        let t := t.placedPoison root b.post.addr.toNat b.bytes.length b.bad
        .next (t.endBounce b (if b.bad.contains true then stAbsent else if b.trunc then stTrunc else stOk) b.full)
      | .error (.trap (.miss va a acc)) => .next (s.raiseFault b.ctx 0xFFFF ((Config.recordField s.tick 4).toNat % 256) a 0 acc va (some (.bounce id)))
      | .error (.trap (.protect va a k acc)) => .next ((s.raiseFault b.ctx 0xFFFF ((Config.recordField s.tick 4).toNat % 256) a k acc va none).endBounce b stAbsent 0)
      | .error (.wait _) => .next s
      | .error _ => .next (s.endBounce b stAbsent 0)

/-! ## Host threads and the name flush (R273, R275, R277) -/

/-- HOST_THREAD_REGISTER: a HOST entry is created over VACANT or DEAD. -/
def execHostThreadRegister (c : Nat) (name wake : DWord) (s : State) : Host.Outcome State Fault Refusal :=
  match s.entryRaw name with
  | none => .next s
  | some e => .next (if (e.st = 0 || e.st = 5 || e.st = 7) && wake.toNat % 8 = 0 then s.createEntry name 6 wake c else s)

/-- HOST_THREAD_RETIRE. -/
def execHostThreadRetire (name : DWord) (s : State) : Host.Outcome State Fault Refusal :=
  match s.entry name with
  | none => .next s
  | some e => .next (if e.st = 6 then s.endName e else s)

/-- NAME_FLUSH: the memory image of every cached entry is made current. -/
def execNameFlush (s : State) : Host.Outcome State Fault Refusal :=
  .next (s.names.foldl (fun s e => match s.nameAddr e.name with | some a => s.writeMem 0 a e.bytes | none => s) s)

/-! ## Host commands (R280) -/

/-- A command as the device read it. -/
structure HostCmd where
  addr : Nat
  ctx : Nat
  slot : Nat
  op : Nat
  k : Nat
  f : Bool
  a : DWord
  b : DWord
  c : Nat
  d : Nat
  wake : DWord
  own : DWord
  bad : Bool
  deriving DecidableEq, Repr

/-- The command of a slot, when it is the oldest one taken and no `place` whose bytes are still under way: its fields as they were when its GO write reached the module (assumption
86). -/
def State.hostCmd (s : State) (c slot : Nat) : Option HostCmd :=
  match s.hostq with
  | [] => none
  | x :: _ =>
    if x.ctx != c || x.slot != slot || s.sends.any (fun y => y.op.isPlace && y.host = some x.addr) then none
    else
      let f (o n : Nat) : Nat := leNat ((x.bytes.drop o).take n)
      let q (o : Nat) : DWord := BitVec.ofNat 64 (f o 8)
      let w := f 0 4
      some { addr := x.addr, ctx := c, slot := slot, op := w % 256, k := w / 256 % 4, f := w.testBit 10, a := q 8, b := q 16,
             c := f 24 4, d := f 28 4, wake := q 40, own := q 48, bad := w / 2 ^ 11 % 2 ^ 20 != 0 }

/-- The command is done: RESULT where the command names one, STATUS, then GO is cleared. -/
def State.hostDone (s : State) (h : HostCmd) (st : Word) (result : Option DWord) : State :=
  let s := { s with hostq := s.hostq.drop 1 }
  (match result with | some r => s.wrN (h.addr + 32) 8 r.toNat | none => s).hostAnswer h.addr st

/-- The HOST entry that OWN names. -/
def State.hostOwn (s : State) (h : HostCmd) : Option NameEntry := (s.entry h.own).filter fun e => e.st = 6 && e.ctx = h.ctx

/-- A command taken by the event of its op: an op outside the table, a non-zero zero bit, or an OWN without a HOST entry of
the context gives NONE. -/
def hostCommand (op : Nat) (c slot : Nat) (s : State) (f : HostCmd → NameEntry → State → State) : Host.Outcome State Fault Refusal :=
  match s.hostCmd c slot with
  | none => .next s
  | some h =>
    if h.op != op && decide (1 ≤ h.op) && decide (h.op ≤ 10) then .next s
    else
      match s.hostOwn h with
      | none => .next (s.hostDone h stNone none)
      | some e => .next (if h.bad || h.op != op then s.hostDone h stNone none else f h e s)

/-- A send by a host thread, whose sender domain is OWN's: resolved at once, or held for its target (R278, R280). The command after a
`place` is taken once that has been placed (R285). -/
def State.hostSend (s : State) (h : HostCmd) (op : SendOp) (anyGen : Bool) : State :=
  let x : Send := ⟨s.nextId, none, none, 0, op, h.a, anyGen, BitVec.ofNat 16 h.c, nameDomain h.own, none, some h.addr⟩
  let s := { s with nextId := s.nextId + 1, hostq := if op.isPlace then s.hostq else s.hostq.drop 1, sends := s.sends ++ [x] }
  if s.remote h.a then s else s.resolveSend x

def execHostNsig (c slot : Nat) (s : State) : Host.Outcome State Fault Refusal :=
  hostCommand 1 c slot s fun h _ s => s.hostSend h (.sig (h.b.toNat % 2 ^ 32)) h.f

def execHostNwake (c slot : Nat) (s : State) : Host.Outcome State Fault Refusal :=
  hostCommand 2 c slot s fun h _ s => s.hostSend h .wake h.f

def execHostNdep (c slot : Nat) (s : State) : Host.Outcome State Fault Refusal :=
  hostCommand 3 c slot s fun h _ s => s.hostSend h (.dep h.k h.b h.f) true

/-- Take: as `nwait` tests, without parking. -/
def execHostTake (c slot : Nat) (s : State) : Host.Outcome State Fault Refusal :=
  hostCommand 4 c slot s fun h e s =>
    let mn := h.b.toNat % 2 ^ 32
    if e.count ≥ mn then (s.setEntry { e with count := e.count - mn }).hostDone h stOk (some (BitVec.ofNat 64 (e.count - mn)))
    else if h.f && e.wake then (s.setEntry { e with wake := false }).hostDone h stWoken (some (BitVec.ofNat 64 e.count))
    else s.hostDone h stNone (some (BitVec.ofNat 64 e.count))

def execHostNrd (c slot : Nat) (s : State) : Host.Outcome State Fault Refusal :=
  hostCommand 5 c slot s fun h e s =>
    let v := e.dep[h.k]?.getD 0
    (if h.f then s.setEntry { e with dep := e.dep.setIfInBounds h.k 0 } else s).hostDone h stOk (some v)

/-- A host command's access to its context's memory: user-level, by the hub. -/
def hostAccess (read : Bool) : Access := { read := read, write := !read, fetch := false, user := true, cask := false, agent := 2 }

/-- The physical address and key of a host command's address in memory space, or none where its rules fail. -/
def State.hostAddr (s : State) (h : HostCmd) (read : Bool) (va : DWord) (al : Nat) : Option (Nat × Nat) :=
  if va.toNat ≥ 2 ^ 57 || va.toNat % al != 0 then none
  else
    match translate s (((s.getCtx h.ctx).map (·.root)).getD 0) (hostAccess read) va.toNat with
    | .ok x => some x
    | .error _ => none

def execHostWwait (c slot : Nat) (s : State) : Host.Outcome State Fault Refusal :=
  hostCommand 6 c slot s fun h _ s =>
    let n := if h.f then 8 else 4
    match s.hostAddr h true h.a n with
    | none => s.hostDone h stAbsent none
    | some (pa, key) =>
      if h.wake.toNat % 8 != 0 then s.hostDone h stAbsent none
      else if leNat (s.readMem key pa n) != h.b.toNat % 2 ^ (8 * n) then s.hostDone h stNoteq none
      else if s.wtab.length ≥ 8192 then s.hostDone h stFull none
      else
        ({ s with nextId := s.nextId + 1, wtab := s.wtab ++ [(⟨s.nextId, h.ctx, h.a, none, h.wake, h.slot⟩ : WEntry)] }).hostDone h stOk none

def execHostWwake (c slot : Nat) (s : State) : Host.Outcome State Fault Refusal :=
  hostCommand 7 c slot s fun h _ s =>
    match s.hostAddr h true h.a 4 with
    | none => s.hostDone h stAbsent none
    | some _ =>
      let (t, n) := s.wakeN h.ctx h.a (h.b.toNat % 2 ^ 32)
      t.hostDone h stOk (some (BitVec.ofNat 64 n))

def execHostMpost (c slot : Nat) (s : State) : Host.Outcome State Fault Refusal :=
  hostCommand 8 c slot s fun h e s =>
    let ok := decide (1 ≤ h.c) && decide (h.c ≤ 4096) && h.c % 16 = 0 && (s.hostAddr h false h.a 16).isSome &&
      (s.hostAddr h false (h.a + BitVec.ofNat 64 (h.c - 16)) 16).isSome
    if !ok then s.hostDone h stAbsent none
    else if e.posts.length ≥ 8 then s.hostDone h stFull none
    else (s.setEntry { e with posts := e.posts ++ [(⟨h.a, h.c, h.b.setWidth 32⟩ : Post)] }).hostDone h stOk none

def execHostMstat (c slot : Nat) (s : State) : Host.Outcome State Fault Refusal :=
  hostCommand 9 c slot s fun h e s =>
    match e.receipts with
    | [] => s.hostDone h stNone none
    | r :: rest =>
      let t := s.setEntry { e with receipts := rest }
      let t := (t.wrN (h.addr + 16) 8 r.status.toNat).wrN (h.addr + 24) 4 r.len.toNat
      let t := t.wrN (h.addr + 28) 4 (r.tag.toNat + r.domain.toNat * 65536)
      t.hostDone h stOk (some (r.id.setWidth 64))

/-! ## The command `place` (R281) -/

/-- Every byte of a range of a context's memory, with the poison of its units; none where the range breaks the rules of `cpy` (R154) or a page
fails. -/
def State.hostRead (s : State) (h : HostCmd) (va n : Nat) : Option (List Byte × List Bool) :=
  if va % 16 != 0 || decide (va ≥ 2 ^ 57) || decide (va + n > 2 ^ 57) then none
  else
    (List.range (n / 16)).foldr (fun i r =>
      match r, s.hostAddr h true (BitVec.ofNat 64 (va + 16 * i)) 16 with
      | some (bs, ps), some (pa, key) => some (s.readMem key pa 16 ++ bs, s.poisoned (.mem pa key) 16 :: ps)
      | _, _ => none) (some ([], []))

def execHostPlace (c slot : Nat) (s : State) : Host.Outcome State Fault Refusal :=
  hostCommand 10 c slot s fun h _ s =>
    match (if h.c % 16 = 0 && decide (h.c ≤ 2 ^ 24) then s.hostRead h h.b.toNat h.c else none) with
    | none => s.hostDone h stAbsent none
    | some (bs, bad) => if s.bounceFull then s.hostDone h stBusy none else s.hostSend h (.place h.d bs bad) true

end Sys2Proof.Machine
end

