-- ==== Sys2Proof/Machine/Fetch.lean ====
section
/-!
DEFINITION. Fetching (R44, R43, R59, R296): a packet's three words, a matrix word, the chains of a packet (R46), and the
words that are not idempotent (R68).
-/
namespace Sys2Proof.Machine

/-- The access of a fetch at a level (R296). -/
def fetchAccess (l : Level) : Access :=
  { read := false, write := false, fetch := true, user := l != .firmware, cask := false, agent := 4 }

/-- A word of memory space, fetched through the loaded context's tables; at firmware level one of firmware memory (R351, assumption 106). -/
def fetchWord (s : State) (l : Level) (va : DWord) : Res Word := do
  need (va.toNat < 2 ^ 57) (.address va)
  if l = .firmware then .ok (BitVec.ofNat 32 (leNat (cellsRead s.fwmem va.toNat 4)))
  else
    let (pa, key) ← translate s s.ctx.root (fetchAccess l) va.toNat
    .ok (BitVec.ofNat 32 (leNat (s.readMem key pa 4)))

/-- A packet. -/
structure Packet where
  w0 : Word
  w1 : Word
  w2 : Word
  deriving DecidableEq, Repr

def Packet.word (p : Packet) (i : Nat) : Word := match i with | 0 => p.w0 | 1 => p.w1 | _ => p.w2

/-- The packet at a split's program counter. -/
def fetchPacket (s : State) (l : Level) (pc : DWord) : Res Packet := do
  let a ← fetchWord s l pc
  let b ← fetchWord s l (pc + 4)
  let c ← fetchWord s l (pc + 8)
  .ok ⟨a, b, c⟩

/-- The slot after the chain that begins at a slot: C chains a word to the next (R46). -/
def Packet.chainEnd (p : Packet) (i : Nat) : Nat :=
  if i = 0 then (if (headerOf p.w0).cb then (if (headerOf p.w1).cb then 3 else 2) else 1)
  else if i = 1 then (if (headerOf p.w1).cb then 3 else 2)
  else 3

/-- The words of a chain with their slots. -/
def Packet.chain (p : Packet) (i : Nat) : List (Nat × Word) :=
  (List.range 3).filterMap fun n => if i ≤ n ∧ n < p.chainEnd i then some (n, p.word n) else none

/-- A word that is not idempotent: atomics, cellar operations, barriers, work, engine commands, and name, wait, stream and
message operations (R68, R289). -/
def notIdempotent (w : Word) : Bool :=
  let m := majorOf w
  m = 0x2A || m = 0x2B || m = 0x0C || m = 0x0E || (decide (0x30 ≤ m) && decide (m ≤ 0x35))

/-- The next chain of a split of a warp of a context; empty where the fetch fails. -/
def State.nextChain (s : State) (c : Nat) (w : Warp) (p : Split) : List (Nat × Word) :=
  match s.getCtx c with
  | none => []
  | some x =>
    match fetchPacket { s with ctx := x } w.level p.pc with
    | .ok k => k.chain p.slot
    | .error _ => []

/-- The issue of a `jtake`, or of an `lrefill` that takes: its split's lanes want more items than the queue holds (R149, R270). -/
def isTake (b : Block) (w : Warp) (p : Split) (x : Word) : Bool :=
  match decodeWord x with
  | .ok (.jtake _ _) => true
  | .ok (.lrefill _ m) => decide (popc ((w.masks[m.toNat]?.getD 0) &&& p.mask).toNat 32 > b.items.length)
  | _ => false

end Sys2Proof.Machine
end

