-- ==== Sys2Proof/Machine/Saves.lean ====
section
/-!
DEFINITION. Saving and restoring blocks: boundaries (R270), what must have happened before a save (R287), save areas
(R288), forced saves (R289), the records (R290), and the way back (R291), with the names that follow (R277).
A saved block's warps carry keys of their own, from core 1024 on, which no resident warp has.
-/
namespace Sys2Proof.Machine

/-! ## Keys -/

def savedKey (launch rank warp : Nat) : WKey := ⟨1024 + launch, 5 + rank, warp⟩

/-- The core and slot in the keys of a saved block's warps. -/
def savedPlace (b : Block) : Nat × Nat := (1024 + b.launch, 5 + b.rank)

def reKey (a b k : WKey) : WKey := if k = a then b else k

def Agent.moveKey (a b : WKey) : Agent → Agent
  | .split k sp => .split (reKey a b k) sp
  | .rack k => .rack (reKey a b k)
  | .seq k => .seq (reKey a b k)
  | x => x

def SlotEvent.moveKey (a b : WKey) : SlotEvent → SlotEvent
  | .claim i w h f => .claim i (w.map (reKey a b)) h f
  | .release i w u => .release i (w.map (reKey a b)) u
  | .fill i w z d c => .fill i (w.map (reKey a b)) z d c

/-- Everything that names a warp by its key follows it. -/
def State.moveKey (s : State) (a b : WKey) : State :=
  let f := reKey a b
  { s with
    wtab := s.wtab.map fun (e : WEntry) => { e with warp := e.warp.map f }
    ops := s.ops.map fun (o : EngOp) => { o with key := f o.key }
    sends := s.sends.map fun (x : Send) => { x with key := x.key.map f }
    sops := s.sops.map fun (x : Nat × WKey × Nat × StreamOp) => (x.1, f x.2.1, x.2.2)
    clines := s.clines.map fun (l : CLine) => { l with owners := l.owners.map fun o => (o.1, o.2.map f) }
    cbars := s.cbars.map fun (x : CBar) => { x with mem := x.mem.map f, nmem := x.nmem.map f, arr := x.arr.map f, wait := x.wait.map f }
    fu := { s.fu with recs := s.fu.recs.map fun (r : FRec) => { r with who := r.who.map (Agent.moveKey a b) } } }

/-- The cells of full-empty loads follow the partition they lie in. -/
def State.moveCells (s : State) (a b : Nat × Nat) : State :=
  { s with ops := s.ops.map fun (o : EngOp) => match o.kind with
      | .feload sz cl pid cells ls =>
        { o with kind := .feload sz cl pid (cells.map fun c => if (c.2.1, c.2.2.1) = a then (c.1, b.1, b.2, c.2.2.2) else c) ls }
      | _ => o }

def Block.moveKey (x : Block) (a b : WKey) : Block :=
  { x with oslots := x.oslots.map fun (o : OSlot) => { o with events := o.events.map (SlotEvent.moveKey a b) } }

/-! ## Boundaries (R270) -/

/-- The splits of a warp that would run. -/
def Warp.running (w : Warp) : List Split := w.splits.toList.filter fun p => p.st = .live

/-- A waiting warp: parked in `nwait`, `njoin` or `wwait`. -/
def Warp.parked (w : Warp) : Bool :=
  !w.exited && !w.running.isEmpty && w.running.all fun p => match p.wait with | some x => x.isPark | .none => false

/-- A warp at a block boundary. -/
def State.warpAtBoundary (s : State) (b : Block) (w : Warp) : Bool :=
  w.exited || (!w.halted && !w.running.isEmpty && (w.splits.toList.all fun p => p.st != .atBarrier) && w.running.all fun p =>
    match p.wait with
    | some x => x.isPark || (x = .retry && (s.nextChain b.ctx w p).any fun c => isTake b w p c.2)
    | none => (s.nextChain b.ctx w p).any fun c => isTake b w p c.2)

def State.warpsOf (s : State) (b : Block) : List Warp := s.allWarps.filter fun w => w.ofBlk b.core b.slot

/-- A port is held by a warp of the block. -/
def State.portHeld (s : State) (b : Block) : Bool :=
  (s.getCore b.core).ports.toList.any fun p => match p with | some (k, _) => k.core = b.core && k.slot = b.slot | none => false

def State.atBoundary (s : State) (b : Block) : Bool := !s.portHeld b && (s.warpsOf b).all (s.warpAtBoundary b)

/-- The wait of a split is met: its readiness test (R271, R276, R176, R179). -/
def State.waitMet (s : State) (w : Warp) (p : Split) : Bool :=
  match p.wait with
  | some (.wwait x) => x
  | some (.nwait mn wk) =>
    if w.level = .user && s.remote w.name then
      let st := s.remoteAnswer w.name
      s.routed w.name && (st = stOk || st = stAbsent || (wk && st = stWoken))
    else
      match s.entry w.name with
      | none => true
      | some e => decide (e.count ≥ mn.toNat) || (wk && e.wake)
  | some (.njoin n gen) => (s.joinStatus n gen).isSome
  | some .joined => true
  | _ => false

/-! ## Before a save (R287, R289) -/

/-- A split that a forced save sends back to its region entry, live or parked (R289): not one that waits where its region's last
instruction has issued, nor one that a return has just brought to its merge, where its region begins (R131). -/
def Split.goesBack (p : Split) : Bool :=
  p.st != .free && p.st != .atBarrier && !p.spent && !(p.st = .atReconv && p.pc = p.region && p.slot = 0) && match p.wait with
    | some (.barrier ..) => false
    | some (.arriveWait ..) => false
    | some (.items ..) => false
    | some x => !x.isPark
    | .none => true

/-- Lanes that have arrived at their innermost entry have not (R136). -/
def departRecon (m : Word) : List Recon → List Recon
  | [] => []
  | e :: r => if e.pending &&& m = 0 then e :: departRecon m r else { e with arrived := e.arrived &&& ~~~m } :: r

/-- A split goes back to its region entry, and one parked at a reconvergence runs again from there (R289). -/
def Warp.sendBack (w : Warp) (i : Nat) : Warp :=
  let p := w.splitAt i
  let w := w.replay i
  if p.st = .atReconv then { (w.setSplit i { w.splitAt i with st := .live }) with recon := departRecon p.mask w.recon } else w

/-- The splits of an entry that have no record go back too. -/
def Recon.sendBack (e : Recon) : Recon :=
  { e with
    arrived := e.arrived &&& ~~~(e.deferred.filter (·.goesBack)).foldl (fun m d => m ||| d.mask) 0
    deferred := e.deferred.map fun d => if d.goesBack then { d.back with st := .live } else d }

/-- The splits that a forced save sends back: those that have a record, and those that a division has left without one. -/
def Warp.goers (w : Warp) : List Split :=
  (w.splits.toList ++ w.recon.flatMap (·.deferred)).filter (·.goesBack)

/-- A load is among those that the splits that a forced save sends back have issued in the regions they leave. -/
def Warp.forgets (w : Warp) (pid : Nat) (lanes : Word) : Bool :=
  w.goers.any fun p => lanes &&& p.mask != 0 && decide (p.mark ≤ pid)

/-- Every split that goes back has done so; the queue entries that those without a record have pushed since their region entries are
discarded as well (R289). -/
def Warp.forceBack (w : Warp) : Warp :=
  let w := (w.recon.flatMap (·.deferred)).foldl (fun (w : Warp) d => if d.goesBack then w.dropLoads 4 d.mask d.mark else w) w
  let w := { w with recon := w.recon.map Recon.sendBack }
  ((List.range 4).foldl (fun w i => if (w.splitAt i).goesBack then w.sendBack i else w) w).refillDq

/-- What a warp has in flight does not hinder its save (R287): a full-empty load whose region a forced save leaves is discarded
(R289). -/
def State.warpSettled (s : State) (forced : Bool) (w : Warp) : Bool :=
  !(s.sends.any fun x => x.key = some w.key) && !(s.sops.any fun x => x.2.1 = w.key) && (forced || w.dqWait.toList.all (·.isEmpty)) &&
    (s.ops.filter fun o => o.key = w.key && !o.done).all fun o => match o.kind with
      | .feload _ _ pid _ ls => forced && w.forgets pid ls
      | .fold .. => true
      | k => k.isCopy

/-- An operation that has still to access a partition. -/
def EngOp.touches (o : EngOp) (core slot : Nat) : Bool :=
  let on (p : Place) : Bool := match p with | .scratch c x _ => c = core && x = slot | _ => false
  !o.done && match o.kind with
    | .gather _ _ ps => ps.any fun p => on p.2
    | .scatter _ _ xs => xs.any fun p => on p.1
    | .catom _ _ _ xs => xs.any fun p => on p.1
    | _ => false

/-- The die that hosts a logical core is powered down (R344). -/
def State.dieDown (s : State) (core : Nat) : Bool := s.fab.down.contains ((s.fab.map[core]?.getD 0) / 36)

/-- A trap of a block's sequencer has still to be served. -/
def State.seqServed (s : State) (b : Block) : Bool :=
  let c := s.getCore b.core
  (c.records ++ c.handling.toList).any fun (v : Served) => v.seq && v.key.core = b.core && v.key.slot = b.slot

/-- A block that can be saved now: at a boundary, or, forced, with no run in progress. -/
def State.saveReady (s : State) (b : Block) (forced : Bool) : Bool :=
  b.life = .resident && !s.dieDown b.core && !s.seqServed b && (if forced then !s.portHeld b && (s.warpsOf b).all (fun w => w.exited || !w.halted) else s.atBoundary b) &&
    (s.warpsOf b).all (s.warpSettled forced) && b.seq.flights.isEmpty && (b.oslots.all fun o => o.events.all fun e => e.who.isSome) &&
    s.ops.all fun o => !o.touches b.core b.slot

/-- A warp as its record holds it; a queue entry whose data have not arrived is saved as its load (R15, R287, R288). -/
def Warp.forSave (w : Warp) (forced : Bool) : Warp :=
  let w := if forced then w.forceBack else w
  let w := w.settleAll
  { w with dq := w.dq.mapIdx fun _ q => q.map fun (e : DqEntry) => { e with reissue := e.reissue || !e.arrived } }

/-- A warp's full-empty loads in flight: their numbers and results. -/
def State.loadsOf (s : State) (k : WKey) : List (Nat × Nat) :=
  s.ops.filterMap fun o => match o.kind with | .feload _ _ pid _ _ => if o.key = k && !o.done then some (o.id, pid) else none | _ => none

/-! ## Save areas (R288) -/

def freeAt (areas : List (Nat × Nat)) (a n : Nat) : Bool := areas.all fun x => decide (a + n ≤ x.1) || decide (x.1 + x.2 ≤ a)

/-- The lowest free address of the pool for n bytes. -/
def allocArea (c : Ctx) (areas : List (Nat × Nat)) (n : Nat) : Option Nat :=
  let cand := (c.pool :: areas.map fun x => x.1 + x.2).filter fun a => freeAt areas a n && decide (a + n ≤ c.pool + c.poolSize)
  match cand with
  | [] => none
  | a :: r => some (r.foldl Nat.min a)

/-- Areas of several sizes, in order; none when one finds no room. -/
def allocAreas (c : Ctx) : List (Nat × Nat) → List Nat → Option (List (Nat × Nat))
  | _, [] => some []
  | areas, n :: r =>
    match allocArea c areas n with
    | none => none
    | some a => (allocAreas c (areas ++ [(a, n)]) r).map fun l => (a, n) :: l

/-! ## The save -/

/-- Steal requests that the block posted are withdrawn (R290). -/
def State.withdrawPosted (s : State) (b : Block) : State :=
  let s := s.unload
  { s with cores := s.cores.map fun (c : Core) => { c with mailbox := c.mailbox.filter fun r => !(r.core = b.core && r.ctx = b.ctx) } }

/-- The owner's tiles are spilled to its tile save area, and the store has no owner (R292). -/
def State.spillOwner (s : State) (b : Block) : State :=
  let c := s.getCore b.core
  if c.accown = BitVec.ofNat 3 (4 + b.slot) then
    let rows := (List.range b.acc).flatMap fun t => (List.range 32).flatMap fun r => vregBytes (c.accRow t r)
    (s.storePool b.ctx (s.tileArea b.ctx b.core) rows).setCore { c with accown := 0 }
  else s

/-- A name follows its owner's save: SAVED or TRANSIT, with the save address (R277). -/
def State.saveName (s : State) (n : DWord) (area : Nat) (transit : Bool) : State :=
  s.onEntry n fun e => if e.st = 1 || e.st = 2 || e.st = 3 then
    { e with st := if transit then 4 else 3, loc := BitVec.ofNat 64 area, transitAt := s.wall } else e

/-- A write of some ranges of a context's memory by the device finds room in the reserve of a checkpoint for every frozen granule that it
reaches (R347). -/
def State.poolRoom (s : State) (ctx : Nat) (ranges : List (Nat × Nat)) : Bool :=
  s.reserveRoom (ranges.flatMap fun r => s.poolPages ctx r.1 r.2)

/-- The save of a block, or none where the pool has no room, or its records must wait: the records are written, the names pass to SAVED, and
the core's resources are freed or kept. -/
def State.saveBlock (s : State) (b : Block) (forced free swapped : Bool) : Option State :=
  match s.getCtx b.ctx with
  | none => none
  | some c =>
    let ws := s.warpsOf b
    let live := ws.filter fun w => !w.exited
    match allocAreas c c.areas (live.map Warp.areaSize ++ [b.areaSize free]) with
    | none => none
    | some areas =>
      if !s.poolRoom b.ctx (areas ++ if free then [(s.tileArea b.ctx b.core, 4096 * b.acc)] else []) then none
      else
      let s := s.unload
      let gone := ws.flatMap fun w => s.loadsOf w.key
      let s := { s with ops := s.ops.filter fun (o : EngOp) => !gone.any fun x => x.1 = o.id }
      let ws := ws.map fun (w : Warp) => ({ w with pend := w.pend.filter fun (p : Pend) => !gone.any fun x => x.2 = p.id }).forSave forced
      let s := s.withdrawPosted b
      let s := if free then s.spillOwner b else s
      let b := { b with life := .saved, draining := false, stealPosted := false, freed := free,
                        area := ((areas.getLast?).map (·.1)).getD 0 }
      let s := (live.zip areas).foldl (fun s x =>
        let w := (ws.find? fun y => y.key = x.1.key).getD x.1
        (s.storePool b.ctx x.2.1 (s.warpRecord w)).saveName w.name x.2.1 (b.migrate.isSome)) s
      let s := s.storePool b.ctx b.area (s.blockRecord b free)
      let moves := ws.map fun w => (w.key, savedKey b.launch b.rank w.key.rank)
      let b' := moves.foldl (fun b m => b.moveKey m.1 m.2) b
      let v : Saved := { blk := { b' with migrate := none }, areas := areas, transit := b.migrate.isSome, dest := b.migrate.getD 0, swapped := swapped, readyAt := none,
                         warps := ws.map fun (w : Warp) => { w with key := savedKey b.launch b.rank w.key.rank } }
      let s := (moves.foldl (fun (s : State) m => s.moveKey m.1 m.2) s).moveCells (b.core, b.slot) (savedPlace b)
      let s := { s with
        saved := s.saved ++ [v]
        blks := s.blks.filter fun x => !(x.core = b.core && x.slot = b.slot)
        warps := s.warps.filter fun w => !w.ofBlk b.core b.slot }
      some (s.onCtx b.ctx fun c => { c with areas := c.areas ++ areas })

/-! ## Room on a core (R260) -/

/-- Warps of n whose rank falls in partition p (R205). -/
def inPartition (n p : Nat) : Nat := (n + 3 - p) / 4

/-- The blocks that hold resources of a core: the resident ones, and the saved ones that keep their core. -/
def State.holders (s : State) (core : Nat) : List Block :=
  (s.allBlks.filter fun b => b.core = core) ++ ((s.saved.filter fun v => v.blk.core = core && !v.blk.freed).map (·.blk))

/-- A context whose blocks a checkpoint saves: none of them starts or is restored before the freeze (R346). -/
def State.freezing (s : State) (c : Nat) : Bool := s.ck.any fun k => k.phase = 1 && k.ctxs.contains c

/-- A block fits on a core beside the others. -/
def State.admits (s : State) (core : Nat) (b : Block) : Bool :=
  let hs := s.holders core
  let sum (f : Block → Nat) : Nat := hs.foldl (fun a x => a + f x) (f b)
  s.fab.ready && decide (core < s.fab.map.length) && !s.dieDown core && !s.freezing b.ctx &&
    ((s.getCtx b.ctx).any fun c => c.live) && decide (hs.length < 4) && hs.all (fun x => x.ctx != b.ctx) &&
    ([0, 1, 2, 3].all fun p => decide (sum (fun x => inPartition x.nw p) ≤ 16) && decide (sum (fun x => inPartition x.nw p * (x.fixed + x.w)) ≤ 1024)) &&
    decide (sum (·.part) ≤ 2 ^ 21) && decide (sum (·.slots) ≤ 256) && decide (sum (·.bars) ≤ 16)

/-- The lowest context slot of a core that no block holds. -/
def State.freeSlot (s : State) (core : Nat) : Nat :=
  ([0, 1, 2, 3].find? fun i => (s.holders core).all fun b => b.slot != i).getD 0

/-- The warp slots in use on a core. -/
def State.usedSlots (s : State) (core : Nat) : List Nat :=
  ((s.allWarps.filter fun w => w.key.core = core && w.level = .user).map (·.wslot)) ++
    (s.saved.filter fun v => v.blk.core = core && !v.blk.freed).flatMap fun v => v.warps.map (·.wslot)

/-- The lowest free warp slot of the partition of each rank below n; partition p holds slots 16p to 16p + 15 (R353). -/
def slotsFor (used : List Nat) (n : Nat) : List Nat :=
  ((List.range n).foldl (fun (a : List Nat × List Nat) r =>
    let k := (((List.range 16).map fun i => 16 * (r % 4) + i).find? fun x => !a.1.contains x).getD (16 * (r % 4))
    (k :: a.1, a.2 ++ [k])) (used, [])).2

/-! ## The restore (R291) -/

/-- Sends that a TRANSIT entry held, or that wait for these names, are resolved in the order they reached the hub. -/
def State.resolveHeld (s : State) (names : List DWord) : State :=
  (s.sends.filter fun x => names.contains x.name && !s.remote x.name).foldl (fun s x => s.resolveSend x) s

/-- The name of a restored warp: PARKED while a wait of it stays unmet (R277). -/
def State.restoreName (s : State) (w : Warp) : State :=
  let unmet := w.running.any fun p => (p.wait.any fun x => x.isPark) && !s.waitMet w p
  s.onEntry w.name fun e => if e.st = 3 || e.st = 4 then
    { e with st := if unmet then 2 else 1, loc := warpLoc w.key.core w.key.slot w.wslot } else e

def Warp.resume (w : Warp) (now : Nat) : Warp :=
  { w with splits := w.splits.mapIdx fun _ (p : Split) => { p with nextIssue := now, stamp := now, lost := 0 } }

/-- A saved item queue goes back to the core it was saved on, before what entered the queue there since (R222). -/
def State.regainItems (s : State) (old : Nat) (b : Block) : State × Block :=
  if b.core = old then s.topItems b
  else
    let s := match s.blks.find? fun x => x.core = old && x.ctx = b.ctx with
      | some x => let (s, x) := s.topItems { x with items := b.items ++ x.items }
        s.setBlk x
      | none => s.keepItems old b.ctx (b.items ++ s.kept old b.ctx)
    s.topItems { b with items := [] }

/-- The areas of a saved block's warps. -/
def Saved.areaOf (v : Saved) (k : WKey) : Option Nat := (((v.warps.filter fun w => !w.exited).zip v.areas).find? fun x => x.1.key = k).map (·.2.1)

/-- A saved block as its records in the pool hold it (R291, assumption 20). -/
def State.readRecords (s : State) (v : Saved) : Saved :=
  { v with
    blk := v.blk.readBack (s.fields v.blk.ctx v.blk.area)
    warps := v.warps.map fun w => match v.areaOf w.key with | some a => w.readBack (s.fields v.blk.ctx a) | none => w }

/-- The suspended copies of a saved block, at the byte offsets of their records (R288). -/
def State.readCopies (s : State) (v : Saved) : State :=
  let mine (k : WKey) (x : EngOp) : Bool := x.key = k && !x.done && x.kind.isCopy
  let at' (o : EngOp) (a w : Nat) : Nat := s.fields v.blk.ctx a (9000 + 128 * w + 16 + 32 * ((s.ops.takeWhile fun x => x.id != o.id).filter (mine o.key)).length) 8 o.off
  { s with ops := s.ops.map fun (o : EngOp) =>
      match v.warps.find? fun w => mine w.key o, v.areaOf o.key with
      | some w, some a => { o with off := at' o a w.w }
      | _, _ => o }

/-- A warp that stood on a restored block's place before and has ended leaves the cluster's barriers, where it counts as arrived (R142). -/
def State.dropKeys (s : State) (ctx : Nat) (ks : List WKey) : State :=
  let new (l : List WKey) : List WKey := l.filter fun k => !ks.contains k
  { s with cbars := s.cbars.map fun (x : CBar) => if x.ctx = ctx then { x with mem := new x.mem, nmem := new x.nmem, arr := new x.arr, wait := new x.wait } else x }

/-- The block has started since its context last owned the store of a core (R293). -/
def State.freshOn (s : State) (core : Nat) (b : Block) : Bool :=
  !(s.getCore core).owned.any fun x => x.1 = b.ctx && decide (b.startAt ≤ x.2)

/-- A saved block becomes resident on a core. -/
def State.restoreBlock (s : State) (v : Saved) (core : Nat) : State :=
  let s := s.unload
  let v := s.readRecords v
  let s := s.readCopies v
  let s := { s with saved := s.saved.filter fun x => !(x.blk.launch = v.blk.launch && x.blk.rank = v.blk.rank) }
  let slot := if v.blk.freed then s.freeSlot core else v.blk.slot
  let ks := slotsFor (s.usedSlots core) v.blk.nw
  let ws := v.warps.map fun (w : Warp) => ({ w with
    key := ⟨core, slot, w.key.rank⟩, wslot := if v.blk.freed then ks[w.key.rank]?.getD 0 else w.wslot } : Warp).resume s.clock
  let moves := v.warps.map fun w => (w.key, (⟨core, slot, w.key.rank⟩ : WKey))
  let b := moves.foldl (fun b m => b.moveKey m.1 m.2) { v.blk with core := core, slot := slot, life := .resident, since := s.clock, freed := false, fresh := s.freshOn core v.blk }
  let (s, b) := s.regainItems v.blk.core { b with seq := { b.seq with nextAt := s.clock, arrayFree := s.clock } }
  let s := (moves.foldl (fun (s : State) m => s.moveKey m.1 m.2) (s.dropKeys v.blk.ctx (moves.map (·.2)))).moveCells (savedPlace v.blk) (core, slot)
  let s := { s with blks := s.blks ++ [b], warps := s.warps ++ ws }
  let s := s.onCtx b.ctx fun c => { c with
    areas := c.areas.filter fun a => !v.areas.contains a, pre := if c.pre = .saved then .running else c.pre }
  let live := ws.filter fun w => !w.exited
  (live.foldl (fun s w => s.restoreName w) s).resolveHeld (live.map (·.name))

/-- The core can take a saved block back: its own one where it kept it, its destination where it migrates (R277). -/
def State.restorable (s : State) (v : Saved) (core : Nat) : Bool :=
  (!v.transit || core = v.dest) &&
  (if v.blk.freed then s.admits core v.blk else core = v.blk.core && !s.freezing v.blk.ctx && ((s.getCtx v.blk.ctx).any fun c => c.live))

end Sys2Proof.Machine
end

