-- ==== Sys2Proof/Machine/LaunchEvents.lean ====
section
/-!
DEFINITION. Contexts, launch queues, launches and blocks: creation and reset of a context (R259, R231, R286, R340), queues
and records (R261 to R263, R276, R308), block start and admission (R10, R16 to R18, R223, R264, R292), swaps (R271),
pre-emption (R286), saves and restores (R287 to R291), and migration (R277).
-/
namespace Sys2Proof.Machine

/-! ## Contexts (R259, R231) -/

/-- The fields of a context descriptor. -/
def State.readDesc (s : State) (c : Ctx) : Ctx :=
  let a := c.desc
  let fl := s.rdN (a + 14) 2
  let t (n d : Nat) : Nat := if n = 0 then d else n
  { c with
    root := s.rdN a 8, domain := BitVec.ofNat 16 (s.rdN (a + 8) 2), pkey := BitVec.ofNat 16 (s.rdN (a + 10) 2)
    keyid := s.rdN (a + 12) 2 % 2048, checking := fl.testBit 0, debugging := fl.testBit 1, handler := fl.testBit 2
    entry := BitVec.ofNat 64 (s.rdN (a + 16) 8), service := BitVec.ofNat 64 (s.rdN (a + 24) 8)
    cbase := s.rdN (a + 32) 4, csize := s.rdN (a + 36) 4
    t1 := t (s.rdN (a + 40) 4) 200, t2 := t (s.rdN (a + 44) 4) 2000
    pool := s.rdN (a + 56) 8, poolSize := s.rdN (a + 64) 8 }

/-- The limits of the descriptor's fields. -/
def Ctx.descOk (c : Ctx) (flags : Nat) : Bool :=
  c.root % 4096 = 0 && decide (flags < 8) && (!c.handler || c.entry.toNat % 12 = 0) && c.cbase % 2 ^ 17 = 0 && c.csize % 2 ^ 17 = 0 &&
    decide (c.cbase + c.csize ≤ 2 ^ 26) && c.pool % 4096 = 0 && c.poolSize % 4096 = 0

/-- The lines of a cellar range become plain and read zero (R231). -/
def State.clearCellar (s : State) (base size : Nat) : State :=
  { s with
    cellar := cellsClear s.cellar base size
    clines := s.clines.filter fun l => !(decide (base ≤ 64 * l.n) && decide (64 * l.n < base + size)) }

/-- CONTEXT_CREATE: nothing for a number above 255, a context that lives, or a descriptor that breaks a limit. -/
def execContextCreate (c : Nat) (desc : DWord) (s : State) : Host.Outcome State Fault Refusal :=
  let old := s.getCtx c
  let x := s.readDesc { Ctx.none with id := c, live := true, desc := desc.toNat, hostPage := (old.map (·.hostPage)).getD 0 }
  let x := { x with lost := BitVec.ofNat 32 (s.rdN (desc.toNat + 48) 4) }
  if decide (c ≥ 256) || desc.toNat % 128 != 0 || old.any (·.live) || !x.descOk (s.rdN (desc.toNat + 14) 2) then .next s
  else
    let s := s.clearCellar x.cbase x.csize
    .next (if old.isSome then s.setCtx x else { s with ctxs := s.ctxs ++ [x] })

/-- CONTEXT_RESET: the actions of LOST; a release ends the context's hold on its cellar range as well (R231, R340). -/
def execContextReset (c : Nat) (release : Bool) (s : State) : Host.Outcome State Fault Refusal :=
  match s.getCtx c with
  | none => .next s
  | some x =>
    let s := s.resetCtx c
    .next (if release then (s.clearCellar x.cbase x.csize).onCtx c fun x => { x with cbase := 0, csize := 0 } else s)

/-! ## Launch queues (R261) -/

def State.queue (s : State) (q : Nat) : Option Queue := s.queues.find? fun x => x.id = q

def State.setQueue (s : State) (x : Queue) : State := { s with queues := s.queues.map fun (y : Queue) => if y.id = x.id then x else y }

def execLaunchQueueConfig (q : Nat) (base : DWord) (log2n prio c : Nat) (s : State) : Host.Outcome State Fault Refusal :=
  if decide (q ≥ 64) || base.toNat % 128 != 0 || decide (log2n > 12) || decide (prio > 3) || decide (c ≥ 256) then .next s
  else .next { s with queues := (⟨q, base.toNat, log2n, prio, c, 0, 0, none⟩ : Queue) :: s.queues.filter fun x => x.id != q }

/-! ## Launch records (R262, R308) -/

/-- The fields of a launch record. -/
def State.readLaunch (s : State) (id : Nat) (q : Queue) (a : Nat) : Launch :=
  let f (o n : Nat) : Nat := s.rdN (a + o) n
  let d (o : Nat) : DWord := BitVec.ofNat 64 (f o 8)
  let fl := f 41 1
  { id := id, queue := q.id, prio := q.prio, ctx := q.ctx, recAddr := a, entry := d 0, stream := d 8, streamLen := f 88 4,
    card := d 16, blocks := f 24 4, nw := f 28 1, w := f 29 1 * 16, fixed := f 30 1, waitshare := f 31 1, part := f 32 4,
    acc := f 36 2, slots := f 38 2, bars := f 40 1, clusterBars := fl.testBit 0, standing := fl.testBit 1, binding := f 42 1,
    wlimit := f 44 4, cask := f 48 8, nameBase := d 56, completion := d 64, depKind := f 72 1, depOp := BitVec.ofNat 32 (f 76 4),
    depObj := d 80, status := 0, offered := 0, finished := 0, readyAt := 0, unbound := false }

/-- The record breaks no limit; `flags` is its byte 41. -/
def Launch.valid (l : Launch) (flags : Nat) : Bool :=
  l.entry.toNat % 12 = 0 && l.stream.toNat % 4 = 0 && decide (l.blocks ≤ 2 ^ 24) && decide (1 ≤ l.nw) && decide (l.nw ≤ 32) &&
    decide (48 ≤ l.w) && decide (l.w ≤ 176) && decide (l.fixed ≤ 16) && decide (l.waitshare ≤ 64) && decide (l.part ≤ 2097152) &&
    l.part % 16 = 0 && decide (l.acc ≤ 768) && decide (l.slots ≤ 256) && decide (l.bars ≤ 16) && decide (flags < 8) &&
    !(flags.testBit 2 && l.card = 0) && decide (1 ≤ l.wlimit) && l.cask % 4096 = 0 && decide (l.depKind ≤ 3) &&
    !(l.depKind = 3 && l.depObj.toNat % 4 != 0) && (l.stream = 0 || l.streamLen % 4 = 0)

/-- A standing launch can be bound: one block, and a configured stream of its context without a kernel (R308). -/
def State.bindable (s : State) (l : Launch) : Bool :=
  !l.standing || (l.blocks = 1 && (s.stream l.binding).any fun x => x.ctx = l.ctx && x.launch.isNone)

/-- The producer's TAIL as the event finds it: where no record is left its store has moved on since, by one record or by more that the
ring holds (R261, assumption 21). -/
def State.tailOf (s : State) (x : Queue) : Word :=
  if x.tail = x.head then x.head + 1 + BitVec.ofNat 32 (Config.tailAhead s.tick % 2 ^ x.log2n) else x.tail

/-- LAUNCH_RECORD_TAKE: the next record of a queue whose head launch does not wait. -/
def execLaunchRecordTake (q : Nat) (s : State) : Host.Outcome State Fault Refusal :=
  match s.queue q with
  | none => .next s
  | some x =>
    if x.headLaunch.isSome then .next s
    else
      let a := x.base + 128 * (x.head.toNat % 2 ^ x.log2n)
      let l := s.readLaunch s.nextId x a
      let ok := l.valid (s.rdN (a + 41) 1) && s.bindable l
      let tail := s.tailOf x
      let s := { s with nextId := s.nextId + 1, tick := s.tick + 1, launches := s.launches ++ [l] }
      let s := s.setQueue { x with head := x.head + 1, tail := tail, headLaunch := if ok then some l.id else none }
      let s := s.launchStatus l (if ok then 1 else 4)
      .next (if ok && l.standing then
          { s with streams := s.streams.map fun (y : Stream) => if y.n = l.binding then { y with launch := some l.id } else y }
        else s)

/-! ## Dependences (R263, R276) -/

inductive DepTest where
  | wait
  | refuse
  | met (s : State)

/-- The memory word of a dependence of kind 3, or none while its page does not permit the read. -/
def State.depWord (s : State) (l : Launch) : Option Nat :=
  match translate s (((s.getCtx l.ctx).map (·.root)).getD 0) (hostAccess true) l.depObj.toNat with
  | .ok (pa, key) => some (leNat (s.readMem key pa 4))
  | .error _ => none

def State.dependence (s : State) (l : Launch) : DepTest :=
  if l.depKind = 0 then .met s
  else if l.depKind = 3 then
    (match s.depWord l with
      | some w => if w != l.depOp.toNat then .met s else .wait
      | none => .wait)
  else if s.remote l.depObj then
    let st := s.remoteAnswer l.depObj
    if !s.routed l.depObj then .wait
    else
    let s := { s with tick := s.tick + 1 }
    if st = stOk then .met s else if st = stAbsent || st = stStale then .refuse else .wait
  else
    match s.entry l.depObj with
    | none => .refuse
    | some e =>
      if l.depKind = 1 then
        (if e.count ≥ l.depOp.toNat then .met (s.setEntry { e with count := e.count - l.depOp.toNat }) else .wait)
      else if e.gen != l.depOp.setWidth 16 then .refuse
      else if e.st = 5 then .met s else .wait

/-- The name of warp w of block b of a launch (R262). -/
def State.warpName (s : State) (l : Launch) (b w : Nat) : DWord :=
  let dom := ((s.getCtx l.ctx).map (·.domain)).getD 0
  dom ++ BitVec.ofNat 48 (l.nameBase.toNat + 32 * b + w)

/-- A name homed on another module is in use there: what that module answers (R274, R276, assumption 12); none is once it, or this
one, is fenced (R340). -/
def State.takenAway (s : State) (n : DWord) (i : Nat) : Bool :=
  s.remote n && !s.fab.revoked.contains (s.nameHome n) && !s.fab.revoked.contains s.fab.homeModule && (Config.remoteStatus (s.tick + i)).getLsbD 0

/-- A name of the launch is in use (R276). -/
def State.namesTaken (s : State) (l : Launch) : Bool :=
  (List.range l.blocks).any fun b => (List.range l.nw).any fun w =>
    (match s.entry (s.warpName l b w) with
      | some e => e.st != 5
      | none => false) || s.takenAway (s.warpName l b w) (32 * b + w)

/-- The names of a launch that lie elsewhere have been asked for, each once. -/
def State.namesAsked (s : State) (l : Launch) : State := if s.remote (s.warpName l 0 0) then { s with tick := s.tick + 32 * l.blocks } else s

/-- A refused launch no longer holds its stream. -/
def State.unbindLaunch (s : State) (l : Launch) : State :=
  { s with streams := s.streams.map fun (y : Stream) => if y.launch = some l.id then { y with launch := none } else y }

/-- LAUNCH_DEPENDENCE_MET: the head launch of a queue is tested. -/
def execLaunchDependenceMet (q : Nat) (s : State) : Host.Outcome State Fault Refusal :=
  match s.queue q with
  | none => .next s
  | some x =>
    match x.headLaunch.bind s.launch with
    | none => .next s
    | some l =>
      match s.dependence l with
      | .wait => .next s
      | .refuse => .next (((s.setQueue { x with headLaunch := none }).launchStatus l 4).unbindLaunch l)
      | .met t =>
        let t := t.setQueue { x with headLaunch := none }
        let taken := t.namesTaken l
        let t := t.namesAsked l
        if taken then .next ((t.launchStatus l 4).unbindLaunch l)
        else if l.blocks = 0 then .next (t.completeLaunch l)
        else .next (t.launchStatus { l with readyAt := t.clock } 2)

/-! ## Block start (R10, R16 to R18, R223, R264, R292) -/

/-- A block as its launch describes it, before it starts. -/
def Launch.block (l : Launch) (core slot rank now : Nat) : Block :=
  { Block.none with
    core := core, slot := slot, ctx := l.ctx, launch := l.id, rank := rank, nw := l.nw, life := .resident, since := now, w := l.w
    fixed := l.fixed, part := l.part, acc := l.acc, slots := l.slots, bars := l.bars, clusterBars := l.clusterBars, prio := l.prio
    waitshare := l.waitshare, card := l.card }

/-- The first cycle in which a block's warps may issue: the clearing of the partition, and the rest of block start. -/
def startCycles (part : Nat) : Nat := (part + 127) / 128 + 64

/-- Warp r of a block at its start: R9, R10, R20. -/
def startWarp (l : Launch) (b : Block) (name : DWord) (r wslot : Nat) (entry : DWord) (at' : Nat) : Warp :=
  let regs := (List.range 96).map fun i =>
    match i with
    | 0 => l.card.setWidth 32
    | 1 => (l.card >>> 32).setWidth 32
    | 2 => BitVec.ofNat 32 b.rank
    | 3 => BitVec.ofNat 32 r
    | 4 => BitVec.ofNat 32 l.nw
    | _ => 0#32
  { Warp.none with
    key := ⟨b.core, b.slot, r⟩, wslot := wslot, name := name, sregs := Vector.ofFn fun i => regs[i.val]?.getD 0, w := l.w
    wlimit := l.wlimit, cask := l.cask + (32 * b.rank + r) * l.wlimit * 6160, exited := false
    splits := (Vector.replicate 4 Split.none).setIfInBounds 0
      { Split.none with st := .live, pc := entry, mask := allLanes, region := entry, nextIssue := at', stamp := at' } }

/-- The block's own state at a start: partition, tiles' status, slots, barriers and sequencer. -/
def Block.started (b : Block) (l : Launch) (at' : Nat) : Block :=
  let all : Word := if b.nw ≥ 32 then allLanes else BitVec.ofNat 32 (2 ^ b.nw - 1)
  let sq := l.stream != 0
  { b with
    scratch := [], full := [], spoison := [], tiles := [], oslots := []
    barrier := List.replicate b.bars ⟨all, sq, all, sq, 0, 0, false, 0, false, false⟩
    seq := { Seq.none with present := sq, ended := !sq, base := l.stream, len := l.streamLen, pc := l.stream, nextAt := at' } }

/-- The warps of every block of a context that starts in a cluster join its cluster barriers, as warps that have not arrived (R18, R142,
R241). A barrier that every block has left keeps its generation (assumption 88). -/
def State.joinCluster (s : State) (b : Block) (ks : List WKey) : State :=
  let new (l : List WKey) : List WKey := l.filter fun k => !ks.contains k
  (List.range 4).foldl (fun s n =>
    let x := s.cbar b.ctx (s.fab.clusterOf b.core) n
    s.setCbar { x with mem := new x.mem ++ ks, nmem := new x.nmem ++ ks, arr := new x.arr, wait := new x.wait }) s

/-- The store's owner at a block start (R292): an unowned store is zeroed and taken. -/
def State.ownAtStart (s : State) (b : Block) : State × Bool :=
  let c := s.getCore b.core
  if b.acc > 0 && !c.accown.getLsbD 2 then
    (s.setCore { c with accown := BitVec.ofNat 3 (4 + b.slot), acc := c.acc.filter fun r => decide (r.1 ≥ 32 * b.acc) }, false)
  else (s, true)

/-- The start of the block's warps at an entry. -/
def State.startBlock (s : State) (l : Launch) (b : Block) (entry : DWord) : State :=
  let s := s.unload
  let at' := s.clock + startCycles b.part
  let ks := slotsFor (s.usedSlots b.core) b.nw
  let ws := (List.range b.nw).map fun r => startWarp l b (s.warpName l b.rank r) r (ks[r]?.getD 0) entry at'
  let (s, fresh) := s.ownAtStart b
  let (s, b) := s.topItems { b.started l at' with fresh := fresh, startAt := s.clock }
  let s := { s with
    blks := b :: s.blks.filter fun x => !(x.core = b.core && x.slot = b.slot)
    warps := s.warps ++ ws }
  let s := s.joinCluster b (ws.map (·.key))
  ws.foldl (fun s w => s.createEntry w.name 1 (warpLoc b.core b.slot w.wslot) b.ctx) s

/-! ## Admission (R264) -/

/-- The first core, in the order of R264, that admits the next block of a launch. -/
def State.firstCore (s : State) (l : Launch) : Option Nat :=
  ((List.range 640).map fun i => (l.offered + i) % 640).find? fun c => s.admits c (l.block c 0 l.offered 0)

/-- A launch has a block to offer. -/
def Launch.offers (l : Launch) : Bool := l.status = 2 && decide (l.offered < l.blocks)

/-! ### The order of becoming ready (R271) -/

/-- The core that a block which the launch unit saved goes back to: its own where that admits it, else the first one that does, once cores
are freed (R271, R272, assumption 107). -/
def State.restoreCore (s : State) (v : Saved) : Option Nat :=
  (v.blk.core :: (List.range 640).map fun i => (v.blk.rank + i) % 640).find? (s.restorable v)

/-- Became ready earlier, or at once with a smaller rank: a cycle and a rank. -/
def readyBefore (a b : Nat × Nat) : Bool := decide (a.1 < b.1) || (a.1 = b.1 && decide (a.2 < b.2))

/-- An unstarted block that the core admits became ready before. -/
def State.unstartedFirst (s : State) (core : Nat) (k : Nat × Nat) : Bool :=
  s.launches.any fun l => l.offers && s.firstCore l = some core && readyBefore (l.readyAt, l.offered) k

/-- A block that the launch unit saved on the core, and that it admits, became ready before. -/
def State.savedFirst (s : State) (core : Nat) (k : Nat × Nat) : Bool :=
  s.saved.any fun v => v.swapped && v.readyAt.any (fun t => readyBefore (t, v.blk.rank) k) && s.restoreCore v = some core

/-- A launch has the turn to place its next block on a core: the first that admits it, with no launch of higher priority that has one to
place, and no block that was ready for the core before (R264, R271). -/
def State.mayAdmit (s : State) (l : Launch) (core : Nat) : Bool :=
  let k := (l.readyAt, l.offered)
  l.offers && s.firstCore l = some core && !s.savedFirst core k &&
    !s.launches.any fun m => m.offers && ((m.prio > l.prio && (s.firstCore m).isSome) ||
      (m.prio = l.prio && readyBefore (m.readyAt, m.offered) k && s.firstCore m = some core))

/-- BLOCK_ADMIT: the next block of a launch whose turn it is starts. A standing launch's block only takes its room (R308). -/
def execBlockAdmit (launch core : Nat) (s : State) : Host.Outcome State Fault Refusal :=
  match s.launch launch with
  | none => .next s
  | some l =>
    if !s.mayAdmit l core then .next s
    else
      let b := l.block core (s.freeSlot core) l.offered s.clock
      let s := s.setLaunch { l with offered := l.offered + 1 }
      if l.standing then .next { s.unload with blks := b :: s.unload.blks }
      else .next (s.startBlock l b l.entry)

/-! ## Swaps (R271) -/

def State.residents (s : State) (l : Launch) : List Block := s.allBlks.filter fun b => b.launch = l.id && b.life = .resident

/-- A saved block of the launch unit is ready: a wait of one of its warps is met, or none waits. -/
def State.savedReady (s : State) (v : Saved) : Bool :=
  let waiting := v.warps.filter Warp.parked
  waiting.isEmpty || waiting.any fun w => w.running.any fun p => s.waitMet w p

/-- The kernel has a block that is not resident and is ready. -/
def State.readyElsewhere (s : State) (l : Launch) : Bool :=
  l.offers || s.saved.any fun v => v.blk.launch = l.id && v.swapped && s.savedReady v

/-- The rule of R271 for a kernel. -/
def State.swapRule (s : State) (l : Launch) : Bool :=
  let bs := s.residents l
  let ws := bs.flatMap s.warpsOf
  let d : Nat := (ws.filter Warp.parked).length
  let share : Nat := (bs.head?.map (·.waitshare)).getD 64
  decide (share < 64) && decide (1 ≤ d) && decide (64 * d ≥ share * ws.length) && s.readyElsewhere l

/-- The resident block to swap: at a boundary and named by no pre-emption, with most waiting warps, and among equals resident the longest. -/
def State.swapVictim (s : State) (l : Launch) : Option Block :=
  let cand := (s.residents l).filter fun b => !b.draining && s.saveReady b false
  let score (b : Block) : Nat := ((s.warpsOf b).filter Warp.parked).length
  cand.foldl (fun r b => match r with
    | none => some b
    | some a => if score b > score a || (score b = score a && b.since < a.since) then some b else some a) none

/-- BLOCK_SWAP: the launch unit saves the block of a kernel on a core. -/
def execBlockSwap (launch core : Nat) (s : State) : Host.Outcome State Fault Refusal :=
  match s.launch launch with
  | none => .next s
  | some l =>
    match s.swapVictim l with
    | none => .next s
    | some b =>
      if b.core = core && s.swapRule l then
        .next ((s.saveBlock b false true true).getD s)
      else .next s

/-! ## Pre-emption (R286) -/

/-- The context has a request under way. -/
def Ctx.requested (x : Ctx) : Bool := x.pre = .draining || x.pre = .forced

/-- A request made on a context; one more while another is under way only names further blocks (assumption 87). -/
def Ctx.request (x : Ctx) (now : Nat) (free : Bool) : Ctx :=
  if x.requested then { x with preFree := x.preFree || free } else { x with pre := .draining, preSince := now, preFree := free }

/-- PREEMPT_REQUEST, by whichever of its sources (assumption 87): the named blocks of the context pass to DRAINING. -/
def execPreemptRequest (c : Nat) (cores : List Nat) (free : Bool) (s : State) : Host.Outcome State Fault Refusal :=
  match s.getCtx c with
  | none => .next s
  | some x =>
    if !x.live then .next s
    else
      let s := s.unload
      let named (b : Block) : Bool := b.ctx = c && b.life = .resident && cores.contains b.core
      if !s.blks.any named then .next s
      else
        .next ({ s with blks := s.blks.map fun (b : Block) => if named b then { b with draining := true } else b }.onCtx c fun x =>
          x.request s.wall free)

/-- BLOCK_SAVE: a named block at a boundary, or any named block once T1 has expired. -/
def execBlockSave (core slot : Nat) (s : State) : Host.Outcome State Fault Refusal :=
  match s.getBlk core slot with
  | none => .next s
  | some b =>
    match s.getCtx b.ctx with
    | none => .next s
    | some c =>
      let forced : Bool := c.pre == .forced
      if b.draining && s.saveReady b forced then
        match s.saveBlock b forced (c.preFree || b.migrate.isSome) false with
        | some t => .next (t.settlePre b.ctx)
        | none => .next s
      else .next s

/-- Units of 1/19 ns in a microsecond. -/
def usUnits : Nat := 19000

def execT1Expiry (c : Nat) (s : State) : Host.Outcome State Fault Refusal :=
  .next (s.onCtx c fun x => if x.pre = .draining && decide (s.wall ≥ x.preSince + x.t1 * usUnits) then { x with pre := .forced } else x)

def execT2Expiry (c : Nat) (s : State) : Host.Outcome State Fault Refusal :=
  match s.getCtx c with
  | none => .next s
  | some x =>
    .next (if x.requested && decide (s.wall ≥ x.preSince + x.t2 * usUnits) then s.resetCtx c else s)

/-- It is the turn of a block that the launch unit saved: it is ready, and no other block was ready for its core before (R271). -/
def State.turnOf (s : State) (v : Saved) : Bool :=
  v.readyAt.any fun t => (s.restoreCore v).any fun c => !s.unstartedFirst c (t, v.blk.rank) && !s.savedFirst c (t, v.blk.rank)

/-- A context's descriptor read again at a restore (R259); a handler entry that breaks its limit is not taken (R44). -/
def State.rereadDesc (s : State) (c : Ctx) : Ctx :=
  let x := s.readDesc c
  let x := if x.handler && x.entry.toNat % 12 != 0 then { x with handler := c.handler, entry := c.entry } else x
  { x with lost := c.lost }

/-- BLOCK_RESTORE: by the runtime, or by the launch unit for a block it swapped, at its turn, on its own core or one that is free. -/
def execBlockRestore (launch rank core : Nat) (s : State) : Host.Outcome State Fault Refusal :=
  match s.saved.find? fun v => v.blk.launch = launch && v.blk.rank = rank with
  | none => .next s
  | some v =>
    if s.restorable v core && (!v.swapped || (s.restoreCore v = some core && s.turnOf v)) then
      .next ((s.onCtx v.blk.ctx s.rereadDesc).restoreBlock v core)
    else .next s

/-! ## Migration (R277) -/

/-- The names of a saved block pass to TRANSIT. -/
def State.beginTransit (s : State) (v : Saved) (dest : Nat) : State :=
  let s := { s with saved := s.saved.map fun (x : Saved) =>
    if x.blk.launch = v.blk.launch && x.blk.rank = v.blk.rank then { x with transit := true, dest := dest } else x }
  (v.warps.filter fun w => !w.exited).foldl (fun s w => s.onEntry w.name fun e => if e.st = 3 then { e with st := 4, transitAt := s.wall } else e) s

/-- A saved block that kept its core gives it up: its record is written again, with the partition (R277, R290). None where the pool
has no room. -/
def State.freeSaved (s : State) (v : Saved) : Option State :=
  (s.getCtx v.blk.ctx).bind fun c => ((allocArea c c.areas (v.blk.areaSize true)).filter fun a =>
      s.poolRoom c.id [(a, v.blk.areaSize true), (s.tileArea c.id v.blk.core, 4096 * v.blk.acc)]).map fun a =>
    let v := s.readRecords v
    let b := { v.blk with freed := true, area := a }
    let move (l : List (Nat × Nat)) : List (Nat × Nat) := l.map fun x => if x.1 = v.blk.area then (a, b.areaSize true) else x
    let s := s.spillOwner v.blk
    let s := s.storePool b.ctx a (s.blockRecord b true)
    ({ s with saved := s.saved.map fun (x : Saved) =>
        if x.blk.launch = b.launch && x.blk.rank = b.rank then { x with blk := b, areas := move x.areas } else x }).onCtx b.ctx fun c => { c with areas := move c.areas }

/-- MIGRATION_BEGIN: a saved block passes to TRANSIT; a resident one is first saved as in a pre-emption, with its core's
resources freed. It is not begun when the pool has no room (R288). -/
def execMigrationBegin (core slot dest : Nat) (s : State) : Host.Outcome State Fault Refusal :=
  match s.getBlk core slot with
  | some b =>
    match s.getCtx b.ctx with
    | none => .next s
    | some c =>
      let room := (allocAreas c c.areas (((s.warpsOf b).filter fun w => !w.exited).map Warp.areaSize ++ [b.areaSize true])).isSome
      if b.life != .resident || b.draining || !room || !c.live then .next s
      else
        .next ((s.setBlk { b with draining := true, migrate := some dest }).onCtx b.ctx fun x => x.request s.wall false)
  | none =>
    let here := s.saved.filter fun v => v.blk.core = core && v.blk.slot = slot
    match (here.find? fun v => !v.blk.freed).or here.head? with
    | none => .next s
    | some v => .next (if v.blk.freed then s.beginTransit v dest else ((s.freeSaved v).map fun t => t.beginTransit v dest).getD s)

/-- TRANSIT_TIMEOUT: 2 µs after the migration began, the entry reverts to SAVED, its block is bound to no destination any more, and held
operations are resolved. -/
def execTransitTimeout (name : DWord) (s : State) : Host.Outcome State Fault Refusal :=
  match s.entry name with
  | none => .next s
  | some e =>
    if e.st = 4 && decide (s.wall ≥ e.transitAt + 2 * usUnits) then
      let t := s.setEntry { e with st := 3 }
      let t := { t with saved := t.saved.map fun (v : Saved) => if v.warps.any fun (w : Warp) => w.name = name then { v with transit := false } else v }
      .next (t.resolveHeld [name])
    else .next s

end Sys2Proof.Machine
end

