-- ==== Sys2Proof/Machine/DeviceEvents.lean ====
section
/-!
DEFINITION. The events of the rest of the device: handlers and the fault queue (R197, R297, R335), management settings,
streams and their activations (R299, R303, R308, R309), checkpoints (R345 to R347), links, fencing and inbound traffic
(R338 to R340), the dies, power and attestation (R341 to R344, R349, R350), scrubbing (R331), and host accesses (R348).
-/
namespace Sys2Proof.Machine

/-! ## Handlers (R335) -/

/-- The handler warp at its entry: R9 and R10 but for the record's address in `s0:s1`, its cause in `s2`, and the active mask of the
faulting split (R208). -/
def handlerWarp (s : State) (core : Nat) (v : Served) : Warp :=
  let a : DWord := BitVec.ofNat 64 v.addr
  let entry := if v.firmware then s.fu.entry else ((s.getCtx v.ctx).map (·.entry)).getD 0
  let slot := ((s.getWarp v.key).map (·.wslot)).getD 0
  let mask := if v.seq then allLanes else ((s.getWarp v.key).map fun w => (w.splitAt v.sp).mask).getD allLanes
  { Warp.none with
    key := handlerKey core, wslot := slot, level := if v.firmware then .firmware else .handler
    sregs := (((Warp.none.sregs.setIfInBounds 0 (a.setWidth 32)).setIfInBounds 1 ((a >>> 32).setWidth 32)).setIfInBounds 2 (BitVec.ofNat 32 v.cause))
    served := some v, exited := false
    splits := (Vector.replicate 4 Split.none).setIfInBounds 0
      { Split.none with st := .live, pc := entry, mask := mask, region := entry, nextIssue := s.clock, stamp := s.clock } }

/-- A record's handler may start: a context handler does not once its context is halted (R196). -/
def State.mayServe (s : State) (v : Served) : Bool := v.firmware || !(s.getCtx v.ctx).any (·.halted)

/-- HANDLER_ENTRY: one handler at a time on a core, the oldest record that it may serve first. -/
def execHandlerEntry (core : Nat) (s : State) : Host.Outcome State Fault Refusal :=
  let c := s.getCore core
  match c.handling, c.records.find? s.mayServe with
  | none, some v =>
    let w := handlerWarp s core v
    let s := s.unload.setCore { c with handling := some v, records := c.records.erase v }
    .next { s with warps := s.warps ++ [w] }
  | _, _ => .next s

/-- The copies that a drain of the handler of a core still waits for. -/
def State.drainPending (s : State) (core ctx since : Nat) : List EngOp :=
  s.ops.filter fun o => o.ctx = ctx && o.key != handlerKey core && o.kind.isCopy && decide (o.id < since) && !o.done && !o.cancelled

/-- DRAIN_WINDOW_EXPIRY: copies unfinished 2 µs after a `drain` are cancelled (R197). -/
def execDrainWindowExpiry (core : Nat) (s : State) : Host.Outcome State Fault Refusal :=
  let c := s.getCore core
  match c.drainUntil, c.handling with
  | some t, some v =>
    if s.wall < t then .next s
    else
      .next ((s.drainPending core v.ctx c.drainFrom).foldl (fun s o => s.cancelOp o none) s)
  | _, _ => .next s

/-! ## The fault queue (R297) -/

/-- The queue holds fewer than 2^n records. -/
def FaultUnit.room (f : FaultUnit) : Bool := decide ((f.fqTail - f.fqHead).toNat < 2 ^ f.fqLog)

/-- The record is written; one that nobody waits for is then forgotten. -/
def FaultUnit.written (f : FaultUnit) (r : FRec) : FaultUnit :=
  { f with
    fqTail := f.fqTail + 1
    recs := (f.recs.map fun (x : FRec) => if x.token = r.token then { x with written := true } else x).filter fun (x : FRec) =>
      x.token != r.token || x.who.isSome }

/-- FAULT_QUEUE_APPEND: the oldest record that waits is written once there is room. -/
def execFaultQueueAppend (s : State) : Host.Outcome State Fault Refusal :=
  match s.fu.recs.find? fun r => !r.written with
  | none => .next s
  | some r =>
    if s.fu.room then
      let t := s.writeMem 0 (s.fu.fqBase + 32 * (s.fu.fqTail.toNat % 2 ^ s.fu.fqLog)) r.bytes
      .next { t with fu := t.fu.written r }
    else .next s

/-- FAULT_RESUME_TOKEN: the agent of a written record may try again. -/
def execFaultResumeToken (token : DWord) (s : State) : Host.Outcome State Fault Refusal :=
  .next { s with fu := { s.fu with recs := s.fu.recs.filter fun r => !(r.token = token.toNat && r.written) } }

/-! ## Management settings (R274, R280, R292, R297, R333 to R335) -/

def setPair (l : List (Nat × Nat)) (k v : Nat) : List (Nat × Nat) := (k, v) :: l.filter fun p => p.1 != k

/-- A setting written; a value that breaks the setting's limits is not taken. An error ring that is configured anew is written from its
start (assumption 108). -/
def execMgmtRegisterWrite (r : MgmtReg) (idx : Nat) (v : DWord) (s : State) : Host.Outcome State Fault Refusal :=
  let n := v.toNat
  let fu (f : FaultUnit) : State := { s with fu := f }
  .next (match r with
  | .faultArea => if n % 64 = 0 then fu { s.fu with area := n } else s
  | .handlerEntry => if n % 12 = 0 then fu { s.fu with entry := v } else s
  | .zeroPage => fu { s.fu with zeroPage := n }
  | .tileSaveArea => fu { s.fu with tileSave := setPair s.fu.tileSave idx n }
  | .errorRingBase => fu { s.fu with errBase := n, errNext := 0 }
  | .errorRingLen => fu { s.fu with errLen := n, errNext := 0 }
  | .faultQueueBase => if n % 32 = 0 then fu { s.fu with fqBase := n } else s
  | .faultQueueLog => if 4 ≤ n ∧ n ≤ 16 then fu { s.fu with fqLog := n } else s
  | .faultQueueHead => fu { s.fu with fqHead := v.setWidth 32 }
  | .directory => { s with directory := n }
  | .homeModule => { s with fab := { s.fab with homeModule := n } }
  | .hostPage => if n % 4096 = 0 then s.onCtx idx fun c => { c with hostPage := n } else s)

/-! ## Streams (R299, R303, R308, R309) -/

/-- The stream of a descriptor in memory. -/
def State.readStream (s : State) (n a : Nat) : Stream :=
  let f (o k : Nat) : Nat := s.rdN (a + o) k
  let srcs := (List.range 16).filter fun i => (f 14 2).testBit i
  { n := n, desc := a, ringBase := f 0 8, log2n := f 8 1, p := f 9 1, ctx := f 10 2, out := BitVec.ofNat 16 (f 12 2), size := f 16 8
    slide := f 24 8, late := f 32 8, amend := BitVec.ofNat 64 (f 40 8), ovf := f 48 8, ovfLog := f 56 1, resn := f 60 4, res := f 64 8
    head := 0, tail := 0, wm := 0, outwm := 0, ovfcnt := 0, held := none
    sources := srcs.map fun i => ⟨i, f (128 + 16 * i) 4, false, 0, s.time19⟩
    windows := [], times := [], queue := [], running := none, launch := none }

/-- The limits of R299. -/
def Stream.descOk (x : Stream) : Bool :=
  x.ringBase % 64 = 0 && decide (x.ringBase < 2 ^ 57) && decide (4 ≤ x.log2n) && decide (x.log2n ≤ 20) && decide (x.p ≤ 32) &&
    x.out.extractLsb' 12 3 = 0 && !x.sources.isEmpty && decide (1 ≤ x.size) && decide (1 ≤ x.slide) && x.size % x.slide = 0 &&
    decide (x.size / x.slide ≤ 64) && x.amend.toNat % 12 = 0 && x.ovf % 64 = 0 && decide (4 ≤ x.ovfLog) && decide (x.ovfLog ≤ 20) &&
    decide (x.resn ≤ 65536) && x.res % 16 = 0

/-- The reset of the descriptor's device fields and of the result slots (R299, R311); none while a write must wait (R347). -/
def State.clearStream (s : State) (x : Stream) : Option State :=
  let s := (List.range 16).foldl (fun s i =>
    s.writeMem 0 (x.desc + 128 + 16 * i + 4) (leBytes 4 (if x.sources.any fun q => q.n = i then 1 else 0) ++ leBytes 8 0)) s
  let s := s.writeMem 0 (x.desc + 384) (List.replicate 1024 0)
  (List.range x.resn).foldl (fun t i => t.bind fun s => s.hubStore x.ctx (x.res + 16 * i) (List.replicate 16 0)) (some s)

/-- The stream's configuration taken, its fields and its result slots reset. -/
def State.configured (s : State) (x : Stream) : Option State :=
  ({ s with streams := x :: s.streams.filter fun (y : Stream) => y.n != x.n }.putStream x).clearStream x

/-- A descriptor may be configured: it breaks no limit, and no kernel is bound to its stream. -/
def State.streamOk (s : State) (n : Nat) (desc : DWord) : Bool :=
  decide (n ≤ 255) && desc.toNat % 128 = 0 && !(s.stream n).any (fun y => y.launch.isSome || y.running.isSome) && (s.readStream n desc.toNat).descOk

/-- STREAM_CONFIGURE: nothing for a descriptor that breaks a limit, or while a kernel is bound to the stream. One whose writes must wait
changes nothing yet. -/
def execStreamConfigure (n : Nat) (desc : DWord) (s : State) : Host.Outcome State Fault Refusal :=
  .next (if s.streamOk n desc then (s.configured (s.readStream n desc.toNat)).getD s else s)

/-- The block of a launch that no activation runs leaves its core, or its save areas (R308). -/
def State.dropLaunchBlock (s : State) (l : Launch) : State :=
  let s := match s.allBlks.find? fun b => b.launch = l.id with | some b => ((s.withdraw b.core l.ctx).leaveItems b).freeBlock b | none => s
  let gone := (s.saved.filter fun v => v.blk.launch = l.id).flatMap (·.areas)
  ({ s with saved := s.saved.filter fun v => v.blk.launch != l.id }).onCtx l.ctx fun c => { c with areas := c.areas.filter fun a => !gone.contains a }

/-- STREAM_UNBIND: the kernel's launch completes, at once or when the activation that its block runs has ended (R308). One that still waits at the
head of its queue leaves it. -/
def execStreamUnbind (n : Nat) (s : State) : Host.Outcome State Fault Refusal :=
  match s.stream n with
  | none => .next s
  | some x =>
    match x.launch.bind s.launch with
    | none => .next s
    | some l =>
      let l := { l with unbound := true }
      let s := (s.putStream { x with launch := none }).setLaunch l
      let s := { s with queues := s.queues.map fun (q : Queue) => if q.headLaunch = some l.id then { q with headLaunch := none } else q }
      let active := s.allBlks.any fun b => b.launch = l.id && b.act.isSome
      .next (if active then s else (s.dropLaunchBlock l).completeLaunch l)

/-- More than its TIMEOUT has passed since a source's last activity (R303). -/
def Source.expired (q : Source) (now : Nat) : Bool := !q.idle && q.timeout != 0 && decide (now - q.activity > q.timeout * usUnits)

/-- SOURCE_IDLE_TIMEOUT (R303). -/
def execSourceIdleTimeout (n src : Nat) (s : State) : Host.Outcome State Fault Refusal :=
  match s.stream n with
  | none => .next s
  | some x =>
    if x.sources.any fun q => q.n = src && q.expired s.time19 then
      .next (s.doSidle x src).2
    else .next s

/-- The queued activation starts: a fire's window is FIRED (R306, R309). -/
def Stream.startNext (x : Stream) (a : Activation) (rest : List Activation) : Stream :=
  let x := { x with queue := rest, running := some a }
  if !a.amend && x.wstate a.window = 2 then x.setWindow { x.entryOf a.window with st := 3 } else x

/-- ACTIVATION_START: the block of the bound kernel starts once. -/
def execActivationStart (n : Nat) (s : State) : Host.Outcome State Fault Refusal :=
  match s.stream n with
  | none => .next s
  | some x =>
    match x.queue, x.launch.bind s.launch with
    | a :: rest, some l =>
      match s.allBlks.find? fun b => b.launch = l.id && b.life = .resident && !b.draining && b.act.isNone with
      | none => .next s
      | some b =>
        if x.running.isSome then .next s
        else
          let s := s.unload
          let s := { s with warps := s.warps.filter fun w => !w.ofBlk b.core b.slot }
          let s := s.updateStream x (x.startNext a rest)
          .next (s.startBlock l { b with act := some a } (if a.amend then x.amend else l.entry))
    | _, _ => .next s

/-! ## Checkpoints (R345 to R347) -/

/-- The fields of a checkpoint descriptor: the list's entries (address, count, context), and the peers. -/
def State.readCk (s : State) (a : Nat) : List (Nat × Nat × Nat) × List (Nat × DWord) :=
  let list := s.rdN a 8
  let peers := s.rdN (a + 16) 8
  ((List.range (s.rdN (a + 8) 4)).map fun i => (s.rdN (list + 16 * i) 8, s.rdN (list + 16 * i + 8) 4, s.rdN (list + 16 * i + 12) 2),
   (List.range (s.rdN (a + 24) 4)).map fun i => (s.rdN (peers + 16 * i) 2, BitVec.ofNat 64 (s.rdN (peers + 16 * i + 8) 8)))

/-- The checkpoint's STATUS in its descriptor; its reserved bytes keep what they hold (R5, assumption 89). -/
def State.ckStatus (s : State) (desc st : Nat) : State := s.wrN (desc + 28) 4 st

/-- CHECKPOINT_START: the freeze begins; every block of a named context is pre-empted. Nothing while a checkpoint runs, or
for a descriptor that breaks a limit. -/
def execCheckpointStart (desc : DWord) (s : State) : Host.Outcome State Fault Refusal :=
  let a := desc.toNat
  let (list, peers) := s.readCk a
  let busy := match s.ck with | some c => c.phase = 1 || c.phase = 2 | none => false
  if busy || a % 64 != 0 || peers.isEmpty || decide (peers.length > 16) || list.any (fun e => e.1 % 65536 != 0) ||
      s.rdN (a + 48) 8 % 65536 != 0 then .next s
  else
    let s := s.unload
    let cs := (list.map fun e => e.2.2).eraseDups
    let named (b : Block) : Bool := cs.contains b.ctx && b.life = .resident
    let ck : Checkpoint := {
      desc := a, base := s.rdN (a + 48) 8, phase := 1, grans := [], peers := peers
      fenced := (peers.map (·.1)).filter s.fab.revoked.contains, reserve := s.rdN (a + 56) 4, next := 0
      drained := 0, skipped := 0, cellar := 0, ctxs := cs, blocks := (s.blks.filter named).map fun b => (b.launch, b.rank) }
    let s := { s with ck := some ck, blks := s.blks.map fun (b : Block) => if named b then { b with draining := true } else b }
    let s := cs.foldl (fun s c => if s.blks.any fun b => named b && b.ctx = c then
        s.onCtx c fun x => x.request s.wall false else s) s
    .next (s.ckStatus a 1)

/-- A range of the cellar copied to physical memory. -/
def State.copyCellar (s : State) (base size dst : Nat) : State :=
  { s with
    mem := (s.cellar.filter fun x => decide (base ≤ x.1) && decide (x.1 < base + size)).foldl (fun m x => cellSet m (dst + x.1 - base) x.2) (cellsClear s.mem dst size)
    lineKey := s.lineKey.filter fun x => !(decide (dst / 64 ≤ x.1) && decide (x.1 < (dst + size) / 64)) }

/-- The cellar ranges of contexts copied into the reserve, one after another, and the granules they take there; one that does not fit
is not copied (R346, assumption 90). -/
def State.copyCellars (s : State) (base reserve : Nat) : List (Nat × Nat) → Nat → State × Nat
  | [], n => (s, n)
  | (b, z) :: r, n =>
    let k := (z + 65535) / 65536
    if n + k > reserve then State.copyCellars s base reserve r n
    else State.copyCellars (s.copyCellar b z (base + 65536 * n)) base reserve r (n + k)

/-- The physical pages of a granule, or none where a page is not present (assumption 22). -/
def State.granulePages (s : State) (root va : Nat) : Option (List Nat) :=
  (List.range 16).foldr (fun i r => match r, walkFrom s (va + 4096 * i) 4 root with
    | some l, .ok pa _ _ => some (pa / 4096 :: l)
    | _, _ => none) (some [])

/-- Every granule that LIST names, with its ordinal; the pages of those that are present. -/
def State.listGranules (s : State) (list : List (Nat × Nat × Nat)) : List (Option (List Nat)) :=
  list.flatMap fun e =>
    (List.range e.2.1).map fun i => s.granulePages (((s.getCtx e.2.2).map (·.root)).getD 0) (e.1 + 65536 * i)

/-- The drain has ended once every granule is acknowledged. -/
def State.settleCk (s : State) : State :=
  match s.ck with
  | some c => if c.phase = 2 && c.grans.all (fun g => g.st = 3) then ({ s with ck := some { c with phase := 3 } } : State).ckStatus c.desc 3 else s
  | none => s

/-- The peers that are not fenced. -/
def Checkpoint.alive (c : Checkpoint) : List Nat := (c.peers.map (·.1)).filter fun m => !c.fenced.contains m

/-- CHECKPOINT_FREEZE: once every named block is saved, the granules are frozen and the blocks restored. With every peer fenced by
then the checkpoint fails (R347). -/
def execCheckpointFreeze (s : State) : Host.Outcome State Fault Refusal :=
  match s.ck with
  | none => .next s
  | some c =>
    if c.phase != 1 || s.allBlks.any (fun b => c.ctxs.contains b.ctx && b.draining) then .next s
    else
      let gs := (s.listGranules (s.readCk c.desc).1).mapIdx fun i p => (i, p)
      let ranges := c.ctxs.filterMap fun i => (s.getCtx i).map fun x => (x.cbase, x.csize)
      let (s, used) := s.copyCellars c.base c.reserve (if s.rdN (c.desc + 12) 4 % 2 = 1 then ranges else []) 0
      let c := { c with
        phase := if c.alive.isEmpty then 4 else 2, cellar := used, skipped := (gs.filter fun g => g.2.isNone).length
        grans := if c.alive.isEmpty then [] else gs.filterMap fun g => g.2.map fun ps => (⟨g.1, ps, 0, none, 0⟩ : Granule) }
      let s := { s with ck := some c }
      let s := c.blocks.foldl (fun s k => match s.saved.find? fun v => v.blk.launch = k.1 && v.blk.rank = k.2 && !v.transit with
        | some v => if s.restorable v v.blk.core then s.restoreBlock v v.blk.core else s
        | none => s) s
      let s := (s.wrN (c.desc + 32) 8 0).wrN (c.desc + 40) 8 c.skipped
      .next ((s.ckStatus c.desc c.phase).settleCk)

/-- A granule of the running checkpoint changed. -/
def State.onGranule (s : State) (ordinal : Nat) (f : Granule → Granule) : State :=
  match s.ck with
  | some c => { s with ck := some { c with grans := c.grans.map fun (g : Granule) => if g.ordinal = ordinal then f g else g } }
  | none => s

def State.granule (s : State) (ordinal : Nat) : Option Granule :=
  s.ck.bind fun c => if c.phase = 2 then c.grans.find? fun g => g.ordinal = ordinal else none

/-- FROZEN_GRANULE_WRITE: the hub copies an unsent granule into the reserve, which must have room. -/
def execFrozenGranuleWrite (ordinal : Nat) (s : State) : Host.Outcome State Fault Refusal :=
  match s.granule ordinal with
  | some g =>
    match g.pages with
    | p :: _ => .next (if g.st = 0 && !s.writeBlocked (4096 * p) then s.copyGranule (4096 * p) else s)
    | [] => .next s
  | none => .next s

/-- CHECKPOINT_GRANULE_SEND: round-robin among the peers, over a link that is up (R338). -/
def execCheckpointGranuleSend (ordinal : Nat) (s : State) : Host.Outcome State Fault Refusal :=
  match s.ck, s.granule ordinal with
  | some c, some g =>
    match c.alive[c.next % c.alive.length]? with
    | some m =>
      if g.st < 2 ∧ s.reaches m then
        let s := { s with ck := some { c with next := c.next + 1, drained := c.drained + 1 } }
        .next ((s.onGranule ordinal fun g => { g with st := 2, peer := m }).wrN (c.desc + 32) 8 (c.drained + 1))
      else .next s
    | none => .next s
  | _, _ => .next s

/-- CHECKPOINT_PEER_ACK: the granule is unfrozen and its reserve copy freed. -/
def execCheckpointPeerAck (ordinal : Nat) (s : State) : Host.Outcome State Fault Refusal :=
  match s.granule ordinal with
  | some g => .next (if g.st = 2 then (s.onGranule ordinal fun g => { g with st := 3, copy := none }).settleCk else s)
  | none => .next s

/-- The drain of a fenced peer goes on to the next peer, or fails when there is none (R347). -/
def State.fencePeer (s : State) (m : Nat) : State :=
  match s.ck with
  | none => s
  | some c =>
    if !(c.peers.any fun p => p.1 = m) then s
    else
      let c := { c with fenced := if c.fenced.contains m then c.fenced else c.fenced ++ [m] }
      match c.alive, decide (c.phase = 2) with
      | _, false => { s with ck := some c }
      | [], true => ({ s with ck := some { c with phase := 4, grans := [] } } : State).ckStatus c.desc 4
      | _ :: _, true =>
        let dst := c.alive[c.next % c.alive.length]?.getD 0
        { s with ck := some { c with grans := c.grans.map fun (g : Granule) => if g.st = 2 && g.peer = m then { g with peer := dst } else g } }

/-! ## Links, keys and inbound traffic (R338 to R340) -/

/-- 1 ms in units of 1/19 ns. -/
def msUnits : Nat := 19000000

/-- The replays of a link within the last millisecond. -/
def State.recentReplays (s : State) (l : LinkSt) : List Nat := l.replays.filter fun t => decide (t + msUnits ≥ s.wall)

/-- LINK_FLIT_REPLAY: a link with more than 64 replays within 1 ms is taken down. -/
def execLinkFlitReplay (link : Nat) (s : State) : Host.Outcome State Fault Refusal :=
  let replay (l : LinkSt) : LinkSt :=
    let l := { l with replays := s.recentReplays l ++ [s.wall] }
    { l with up := decide (l.replays.length ≤ 64) }
  .next { s with fab := { s.fab with links := s.fab.links.mapIdx fun i l => if i = link && l.up then replay l else l } }

/-- LINK_DOWN: more than 64 replays within 1 ms. -/
def execLinkDown (link : Nat) (s : State) : Host.Outcome State Fault Refusal :=
  .next { s with fab := { s.fab with links := s.fab.links.mapIdx fun i l => if i = link && decide ((s.recentReplays l).length > 64) then { l with up := false } else l } }

/-- An operation of another module on a name homed here; a target in TRANSIT holds it. -/
def State.inboundSend (s : State) (src : Nat) (n : DWord) (op : SendOp) (anyGen : Bool) (gen dom : Half) : State :=
  let x : Send := ⟨s.nextId, none, none, 0, op, n, anyGen, gen, dom, some src, none⟩
  if op.isMsg && s.bounceFull then s
  else ({ s with nextId := s.nextId + 1, sends := s.sends ++ [x] }).resolveSend x

/-- What the owner of an entry homed here, which runs on another module, takes from it: as `nwait` (R176). -/
def NameEntry.taken (e : NameEntry) (min : Word) (wake : Bool) : NameEntry :=
  if e.count ≥ min.toNat then { e with count := e.count - min.toNat } else if wake && e.wake then { e with wake := false } else e

/-- What an accepted flit of a module does. A `bulkGet` and a `join` only read. -/
def State.inbound (s : State) (src : Nat) (c : Ctx) (op : FlitOp) : State :=
  match op with
  | .signal n k gen any dom => s.inboundSend src n (.sig k.toNat) any gen dom
  | .wake n gen any dom => s.inboundSend src n .wake any gen dom
  | .deposit n k v sig dom => s.inboundSend src n (.dep k v sig) true 0 dom
  | .message n tag dom payload => s.inboundSend src n (.msg payload.length tag payload []) true 0 dom
  | .read n k clear => s.onEntry n fun e => if clear then { e with dep := e.dep.setIfInBounds k 0 } else e
  | .take n min wake => s.onEntry n fun e => e.taken min wake
  | .join _ _ => s
  | .place n d bs => s.inboundSend src n (.place d bs []) true 0 0
  | .bulkPut va bs =>
    match storeBytes s c.root (bs.length / 4096 + 2) va.toNat bs with
    | .ok t => t.placedPoison c.root va.toNat bs.length []
    | .error _ => s
  | .bulkGet _ _ => s

/-- The context that a partition key admits traffic for (R339). -/
def State.keyed (s : State) (key : Half) : Option Ctx := s.allCtxs.find? fun c => c.live && c.pkey = key

/-- A part of a bulk copy reaches a frozen granule while the reserve is exhausted: it waits (R347). -/
def State.inboundBlocked (s : State) (key : Half) (src : Nat) (op : FlitOp) : Bool :=
  !s.fab.revoked.contains src && !s.fab.revoked.contains s.fab.homeModule && match op with
    | .bulkPut va bs => (s.keyed key).any fun c => match storeBytes s c.root (bs.length / 4096 + 2) va.toNat bs with
      | .error (.wait _) => true
      | _ => false
    | _ => false

/-- INBOUND_FLIT: accepted by its partition key, or dropped and logged (R339); a fenced module's flits do not arrive, and none arrives once this one is fenced (R340). -/
def execInboundFlit (key : Half) (src : Nat) (op : FlitOp) (s : State) : Host.Outcome State Fault Refusal :=
  if s.fab.revoked.contains src || s.fab.revoked.contains s.fab.homeModule then .next s
  else
    match s.keyed key with
    | some c => .next (s.inbound src c op)
    | none => .next (s.logError 7 0xFF (Config.recordField s.tick 2).toNat (Config.recordField s.tick 4).toNat src 0)

/-- FENCE_REVOKE: from now on what waits for the module, or for another one when this module is fenced, ends as ABSENT or
cancelled, and what waits here for other modules then has no effect (R340). -/
def execFenceRevoke (module : Nat) (s : State) : Host.Outcome State Fault Refusal :=
  let s := if s.fab.revoked.contains module then s else { s with fab := { s.fab with revoked := s.fab.revoked ++ [module] } }
  let s := { s with sends := s.sends.filter fun x => x.src != some module && (x.src.isNone || module != s.fab.homeModule) }
  .next (s.fencePeer module)

/-! ## The dies (R341 to R344, R350) -/

/-- The fused cores of a cluster of a die. -/
def fusedIn (m : BitVec 36) (k : Nat) : Nat := popc ((m.toNat >>> (4 * k)) % 16) 4

/-- The harvest maps obey R341. -/
def harvestOk (harvest : List (BitVec 36)) (spare : Nat) : Bool :=
  harvest.length = 21 && decide (spare < 21) &&
    (List.range 21).all fun d =>
      let m := harvest[d]?.getD 0
      (List.range 9).all (fun k => decide (fusedIn m k ≤ 1)) && decide (popc m.toNat 36 ≤ 4) && (d = spare || popc m.toNat 36 = 4)

/-- BRING_UP: the firmware images with a valid signature are accepted (R349), put into firmware memory (R351, assumption 106), the map is built, the cellar and the tables are cleared, and the module is ready (R342). -/
def execBringUp (harvest : List (BitVec 36)) (spare : Nat) (s : State) : Host.Outcome State Fault Refusal :=
  if s.fab.ready || !harvestOk harvest spare then .next s
  else
    let f := { s.fab with harvest := harvest, spare := spare, spareSt := 0, down := [], firmware := Config.firmwareImages.filter Config.imageSigned }
    .next { s with fab := { f with map := f.buildMap, ready := true }, fwmem := cellsWrite [] 0 f.firmware.flatten, cellar := [], clines := [], names := [], wtab := [] }

/-- SPARE_POWER_UP: the spare is in use from now on (0 powered down, 1 in use, 2 absent). -/
def execSparePowerUp (s : State) : Host.Outcome State Fault Refusal :=
  .next (if s.fab.ready && s.fab.spareSt = 0 then { s with fab := { s.fab with spareSt := 1 } } else s)

/-- The spare's cluster for each cluster of a failed die: one of the same size where there is one, in increasing order. -/
def Fabric.spareClusters (f : Fabric) (die : Nat) : List Nat :=
  let size (d k : Nat) : Nat := (f.enabled d k).length
  ((List.range 9).foldl (fun (a : List Nat × List Nat) k =>
    let pick := ((a.2.find? fun j => size f.spare j = size die k).or (a.2.find? fun j => decide (size f.spare j ≥ size die k))).getD 0
    (a.1 ++ [pick], a.2.filter (· != pick)))
    ([], List.range 9)).1

/-- REHOME: the 32 entries of a die that holds no resident block are mapped onto the spare, and the die is powered down
(R343). A module re-homes once. -/
def execRehome (die : Nat) (s : State) : Host.Outcome State Fault Refusal :=
  let f := s.fab
  let mine (c : Nat) : Bool := (f.map[c]?.getD 0) / 36 = die
  let held := s.allBlks.any (fun b => mine b.core) || s.saved.any fun v => mine v.blk.core && !v.blk.freed
  if f.spareSt != 1 || die = f.spare || decide (die ≥ 21) || held then .next s
  else
    let dst := f.spareClusters die
    let new := (List.range 9).flatMap fun k => (f.enabled f.spare (dst[k]?.getD 0)).take (f.enabled die k).length
    let old := (List.range f.map.length).filter mine
    let map := (old.zip new).foldl (fun m p => m.set p.1 (36 * f.spare + p.2)) f.map
    .next { s with fab := { f with map := map, spareSt := 2, down := if f.down.contains die then f.down else f.down ++ [die] } }

/-- DIE_OVERTEMP: the die is powered down, and every context that holds a block on it waits for its T2 (R344, R350). -/
def execDieOvertemp (die : Nat) (s : State) : Host.Outcome State Fault Refusal :=
  let mine (c : Nat) : Bool := (s.fab.map[c]?.getD 0) / 36 = die
  let s := s.unload
  let cs := ((s.blks.filter fun b => mine b.core).map (·.ctx) ++ ((s.saved.filter fun v => mine v.blk.core && !v.blk.freed).map (·.blk.ctx))).eraseDups
  let s := { s with
    fab := { s.fab with down := if s.fab.down.contains die then s.fab.down else s.fab.down ++ [die] }
    blks := s.blks.map fun (b : Block) => if mine b.core then { b with draining := true } else b }
  .next (cs.foldl (fun s c => s.onCtx c fun x => if x.requested then x else x.request s.wall true) s)

/-- POWER_CAP_SET: 1.5 to 3.0 kW. -/
def execPowerCapSet (watts : Nat) (s : State) : Host.Outcome State Fault Refusal :=
  .next (if 1500 ≤ watts ∧ watts ≤ 3000 then { s with fab := { s.fab with cap := watts } } else s)

/-- CLOCK_LOWERING: a cycle lasts some units of 1/19 ns, 10 at the full 1.9 GHz. -/
def execClockLowering (units : Nat) (s : State) : Host.Outcome State Fault Refusal :=
  .next (if 10 ≤ units then { s with unitsPerCycle := units } else s)

/-- The fields that an attestation report's signature covers, one after another (assumption 76). -/
def Attestation.covered (r : Attestation) : List Byte :=
  leBytes 8 r.nonce.toNat ++ r.firmware ++ (r.harvest.flatMap fun m => leBytes 5 m.toNat) ++ leBytes 1 r.spare ++ leBytes 1 r.spareSt ++
    r.map.flatMap (leBytes 2)

/-- ATTESTATION_REQUEST: nonce, firmware measurements, harvest maps, the spare's state and the map, signed with the identity key. -/
def execAttestationRequest (nonce : DWord) (s : State) : Host.Outcome State Fault Refusal :=
  let f := s.fab
  let r : Attestation := ⟨nonce, f.firmware.flatMap Config.measurement, f.harvest, f.spare, f.spareSt, f.map, []⟩
  .next (if f.ready then { s with fab := { f with report := some { r with signature := Config.identitySign r.covered } } } else s)

/-! ## Scrubbing (R331) -/

/-- A corrected error changes nothing; an uncorrectable one poisons its unit, and is logged. -/
def execScrubbing (u : ScrubUnit) (uncorrectable : Bool) (s : State) : Host.Outcome State Fault Refusal :=
  if !uncorrectable then .next s
  else
    match u with
    | .memory l => .next ((s.setPoison (.mem l 0) true).logError 5 0xFF (Config.recordField s.tick 2).toNat (Config.recordField s.tick 4).toNat 0xFFFF 0)
    | .cellar l => .next ((s.setPoison (.cellar l) true).logError 5 0xFF (Config.recordField s.tick 2).toNat (Config.recordField s.tick 4).toNat 0xFFFF 0)
    | .scratch c x l => .next ((s.setPoison (.scratch c x l) true).logError 5 0xFF c (s.ctxOfBlk c x) 0xFFFF 0)
    | .operand c x n row =>
      .next ((s.onBlk c x fun b => let o := b.oslot n; if o.claimed then b.setOslot { o with badRows := o.badRows ||| (1#32 <<< row) } else b).logError
        5 0xFF c (s.ctxOfBlk c x) 0xFFFF row)

/-! ## Host accesses (R280, R348) -/

/-- The command slots whose GO is set, of every host page. -/
def State.goSlots (s : State) : List (Nat × Nat) :=
  (s.allCtxs.filter fun c => c.hostPage != 0).flatMap fun c =>
    ((List.range 64).filter fun i => decide (s.rdN (c.hostPage + 64 * i) 4 ≥ 2 ^ 31)).map fun i => (c.id, i)

/-- A command slot as it is read when its command is taken (R280, assumption 86). -/
def State.takeSlot (s : State) (g : Nat × Nat) : HostTaken :=
  let a := ((s.getCtx g.1).map (·.hostPage)).getD 0 + 64 * g.2
  ⟨g.1, g.2, a, s.readMem 0 a 64⟩

/-- The write reaches more frozen granules than the reserve has room for (R347). -/
def State.hostBlocked (s : State) (pa n : Nat) : Bool := n != 0 && !s.reserveRoom (pagesOf pa n)

/-- CXL_MEM_HOST_ACCESS: a read changes nothing; a write is made in device memory, and a command slot whose GO it sets
takes its place in the order of commands. A blocked write waits, and changes nothing yet. -/
def execCxlMemHostAccess (pa : Nat) (write : Option (List Byte)) (s : State) : Host.Outcome State Fault Refusal :=
  match write with
  | none => .next s
  | some bs =>
    if s.hostBlocked pa bs.length then .next s
    else
      let old := s.goSlots
      let t := s.writeMem 0 pa bs
      .next { t with hostq := t.hostq ++ (t.goSlots.filter fun g => !old.contains g).map t.takeSlot }

end Sys2Proof.Machine
end

