-- ==== Sys2Proof/Machine/Arbitrate.lean ====
section
/-!
DEFINITION. Before a chain issues: the checks of its packet (R55, R58), the registers it reads and writes and what makes it
wait (R15, R47, R49, R50, R199, R211, R215), and the arbitration of the issue ports (R209, R210).
-/
namespace Sys2Proof.Machine

/-! ## The checks of a packet (R58) -/

def isVectorMajor (m : Nat) : Bool := (decide (0x10 ≤ m) && decide (m ≤ 0x25)) || (decide (0x28 ≤ m) && decide (m ≤ 0x2D))

def pfxOf (w : Word) : Option Pfx :=
  match decodeWord w with
  | .ok (.pfx m z r v u q) => some ⟨m, z, r, v, u, q⟩
  | _ => none

/-- Words i to n - 1 of a packet are each chained to the next. -/
def Packet.chained (p : Packet) (i n : Nat) : Bool := (List.range n).all fun j => decide (j < i) || (headerOf (p.word j)).cb

/-- The prefix that governs a slot's word (R55). -/
def Packet.governing (p : Packet) (i : Nat) : Option Pfx :=
  if i = 0 then none else if (headerOf (p.word (i - 1))).cb then pfxOf (p.word (i - 1)) else none

/-- A prefix is chained and stands before a vector word (R55). -/
def Packet.pfxPlaced (p : Packet) (i : Nat) : Bool :=
  decide (i < 2) && (headerOf (p.word i)).cb && isVectorMajor (majorOf (p.word (i + 1)))

/-- An earlier word of the chain goes to the same pipe (R46, R54). -/
def Packet.pipeTaken (p : Packet) (i : Nat) : Bool :=
  let pipe := pipeOf (majorOf (p.word i))
  pipe != .none && (List.range i).any fun j => p.chained j i && pipeOf (majorOf (p.word j)) = pipe

def minCause : Option Nat → Option Nat → Option Nat
  | none, b => b
  | a, none => a
  | some a, some b => some (Nat.min a b)

/-- The lowest cause of a slot's word. -/
def Packet.slotCause (p : Packet) (l : Level) (i : Nat) : Option Nat :=
  let w := p.word i
  let closed := l != .firmware && (majorOf w = 0x39 || majorOf w = 0x3A)
  let own := match decodeFull w with
    | .error (c, none) => some (if closed then 2 else c)
    | .error (c, some x) => if closed then some 2 else minCause (some c) (wordCause (p.governing i) x)
    | .ok x =>
      if closed then some 2
      else match pfxOf w with
        | some f =>
          if !p.pfxPlaced i then some 6
          else (match decodeFull (p.word (i + 1)) with
            | .ok y => pfxCause f (some y)
            | .error (_, some y) => pfxCause f (some y)
            | .error (_, none) => pfxUseCause f)
        | none => wordCause (p.governing i) x
  minCause own (if p.pipeTaken i then some 8 else none)

/-- The first slot whose word fails a check, and its cause. -/
def Packet.cause (p : Packet) (l : Level) : Option (Nat × Nat) :=
  match p.slotCause l 0 with
  | some c => some (0, c)
  | none =>
    match p.slotCause l 1 with
    | some c => some (1, c)
    | none => (p.slotCause l 2).map fun c => (2, c)

/-! ## What a chain reads and writes -/

/-- Registers read and written, the data queues popped, in order, and the vector registers of which more is used than the lanes of the
split: read across lanes, or zeroed outside E. -/
structure Use where
  reads : List Dest
  writes : List Dest
  pops : List Nat
  wide : List Dest
  deriving DecidableEq, Repr

def Use.none : Use := ⟨[], [], [], []⟩

def Use.add (a b : Use) : Use := ⟨a.reads ++ b.reads, a.writes ++ b.writes, a.pops ++ b.pops, a.wide ++ b.wide⟩

def uRange (r n : Nat) : List Dest := (List.range n).map fun i => .u (r + i)

def Warp.vRange (w : Warp) (r n : Nat) : List Dest := (List.range n).map fun i => w.vdest (r + i)

/-- An operand under the dq bits of its prefix. -/
def Warp.useOf (w : Warp) (q : BitVec 3) (o : Opnd) : Use :=
  let mk (rd wr : Bool) (l : List Dest) : Use := ⟨if rd then l else [], if wr then l else [], [], []⟩
  match o with
  | .u r n rd wr => mk rd wr (uRange r n)
  | .v r n rd wr (some b) => if q.getLsbD b then ⟨[], [], [r % 4], []⟩ else mk rd wr (w.vRange r n)
  | .v r n rd wr .none => mk rd wr (w.vRange r n)
  | .p r rd wr => if r = 0 then Use.none else mk rd wr [.p r]
  | .m r rd wr => if r = 0 then Use.none else mk rd wr [.m r]
  | .q r rd wr => if 0x14 ≤ r ∧ r ≤ 0x17 then mk rd wr [.q (r - 0x14)] else Use.none
  | .newBase r wr => mk false wr (uRange r 2)
  | .load r n absent => mk false (!absent) (w.vRange r n)
  | .loadU r n absent => mk false (!absent) (uRange r n)

/-- What the prefix adds to the word it governs: its mask and its fourth operand. -/
def Warp.usePfx (w : Warp) (f : Pfx) (i : Instr) : Use :=
  let m : Use := if f.m = 0 then Use.none else ⟨[.m f.m.toNat], [], [], []⟩
  match (vecInfo i).map VecInfo.v4 with
  | some .reg => m.add (if f.q.getLsbD 0 then ⟨[], [], [f.v.toNat % 4], []⟩ else ⟨[w.vdest f.v.toNat], [], [], []⟩)
  | some .index => m.add ⟨[w.vdest f.v.toNat], [], [], []⟩
  | some .mask => if f.v = 0 then m else m.add ⟨[.m f.v.toNat], [], [], []⟩
  | some .seed => if f.r = 5 then m.add ⟨w.vRange f.v.toNat 2, [], [], []⟩ else m
  | _ => m

/-- A word that reads lanes of its source registers beyond those of E (R81, R100, R101, R104, R183). -/
def acrossLanes (i : Instr) : Bool :=
  match i with
  | .vbcast .. => true
  | .vdqmx .. => true
  | .vshflIdx .. => true
  | .vshflXor .. => true
  | .vshflUp .. => true
  | .vshflDn .. => true
  | .vshflIdxH2 .. => true
  | .vrdl .. => true
  | .vrdlD .. => true
  | .srec .. => true
  | _ => false

/-- A word that writes the lanes outside E too, whatever its prefix (R71, R102). -/
def fillsLanes (i : Instr) : Bool :=
  match i with
  | .vmatch .. => true
  | .vmatchNum .. => true
  | .vballot .. => true
  | _ => false

/-- What a word under its prefix uses of whole registers. -/
def Use.widen (u : Use) (f : Pfx) (i : Instr) : Use :=
  { u with wide := (if acrossLanes i then u.reads else []) ++ if f.z = 1 || fillsLanes i then u.writes else [] }

/-- The use of the words of a chain. -/
def Warp.chainUse (w : Warp) : Option Pfx → List Word → Use
  | _, [] => Use.none
  | p, x :: r =>
    match decodeWord x with
    | .error _ => Warp.chainUse w .none r
    | .ok i =>
      match pfxOf x with
      | some f => Warp.chainUse w (some f) r
      | .none =>
        let f := p.getD Pfx.plain
        (((((operands i).foldl (fun a o => a.add (w.useOf f.q o)) Use.none).widen f i).add (w.usePfx f i))).add (Warp.chainUse w .none r)

/-! ## The two streams (R211, R212) -/

/-- A word of the access stream that reads registers. -/
def accessWord (x : Word) : Bool :=
  !executeWord x || match decodeWord x with
    | .ok (.bra ..) => true
    | .ok (.braNot ..) => true
    | .ok (.vld _ _ _ _ q _) => q != 2
    | .ok (.sld _ _ _ _ q _) => q != 2
    | .ok (.vgld _ _ _ _ q _) => q != 2
    | _ => false

/-- Control words that the two streams take together, and acquires. -/
def meetingPoint (i : Instr) : Bool :=
  match i with
  | .call .. => true
  | .calli .. => true
  | .ret => true
  | .exit => true
  | .region => true
  | .lhead => true
  | .reconv => true
  | .leave .. => true
  | .waitc .. => true
  | .sigck .. => true
  | .fence .. => true
  | .vatom _ _ _ r _ _ => r = 1 || r = 3
  | .catom _ _ _ r _ _ => r = 1 || r = 3
  | .await .. => true
  | .bsync .. => true
  | .cbawait .. => true
  | .jtake .. => true
  | .lrefill .. => true
  | .njoin .. => true
  | .nwait .. => true
  | .wwait .. => true
  | .nrd .. => true
  | .mstat .. => true
  | .vld _ _ _ _ q _ => q = 1 || q = 2
  | .sld _ _ _ _ q _ => q = 1 || q = 2
  | .vgld _ _ _ _ q _ => q = 1 || q = 2
  | .swin .. => true
  | .swinL .. => true
  | _ => false

/-! ## What makes a chain wait -/

/-- Words that transfer control or change the warp's splits: majors 0x08 to 0x0B, 0x0D and 0x38. -/
def isControl (w : Word) : Bool :=
  let m := majorOf w
  (decide (0x08 ≤ m) && decide (m ≤ 0x0B)) || m = 0x0D || m = 0x38

def isBarrier (w : Word) : Bool := majorOf w = 0x0C

inductive Hold where
  | go
  | wait
  | trap (t : Trap)
  deriving DecidableEq, Repr

/-- The pops of a queue find entries that have arrived: they go, they wait, or a read finds none (R15). -/
def Warp.popsHold (w : Warp) (pops : List Nat) : Hold :=
  let counts := [0, 1, 2, 3].map fun n => (n, (pops.filter (· = n)).length)
  let short (x : Nat × Nat) : Bool := decide ((w.dq[x.1]?.getD []).length < x.2)
  let late (x : Nat × Nat) : Bool := ((w.dq[x.1]?.getD []).take x.2).any fun e => !e.arrived
  if counts.any late then .wait else if counts.any short then .trap .dqUnderflow else .go

/-! ### The scoreboards (R8, R48, R206, R207) -/

/-- A result in flight concerns a split: it goes to a register that the warp's splits share whole, or to lanes of the split, or to a
register of which a word uses all lanes. -/
def Pend.binds (p : Pend) (lanes : Word) (wide : List Dest) : Bool :=
  match p.dest with
  | .vf _ => p.lanes &&& lanes != 0 || wide.contains p.dest
  | .vr _ => p.lanes &&& lanes != 0 || wide.contains p.dest
  | _ => true

/-- A split's own scoreboard (R8, R206, R207): of the results in flight of its warp those that concern it (assumption 94). -/
def Warp.scoreboard (w : Warp) (sp : Nat) (wide : List Dest) : List Pend := w.pend.filter fun p => p.binds (w.splitAt sp).mask wide

/-- A word that accesses memory: of the M pipe, and no accumulator transfer (R54). -/
def touchesMemory (x : Word) : Bool := pipeOf (majorOf x) = .m && majorOf x != 0x2D

/-- An operation that makes requests to memory: any but an accumulator transfer between registers and tiles, and a message. -/
def EngKind.requests (k : EngKind) : Bool :=
  match k with
  | .accrd => false
  | .accwr => false
  | .msend _ => false
  | _ => true

/-- The result of a load or an atomic of an engine, by its number: its operation makes the request. -/
def EngKind.loadId (k : EngKind) : Option Nat :=
  match k with
  | .gather _ pid _ => some pid
  | .feload _ _ pid _ _ => some pid
  | .wsnap _ _ _ _ pid => some pid
  | _ => none

/-- The memory requests of a core that have not ended, each counted once (R1, assumption 92): the loads whose data have not arrived,
and the engines' operations. -/
def State.outstanding (s : State) (core : Nat) : Nat :=
  let os := s.ops.filter fun o => o.key.core = core && !o.done && o.kind.requests
  let held (id : Nat) : Bool := os.any fun o => o.kind.loadId = some id
  (s.allWarps.filter fun w => w.key.core = core).foldl (fun n w =>
      n + ((w.pend.filter fun p => p.due.isNone && p.mem && !held p.id).map (·.id)).eraseDups.length +
        (w.dq.toList.flatMap fun q => q.filter fun e => !e.arrived && !e.reissue && !held e.id).length) 0 +
    os.length

/-- The words wait for a full-empty load of their split, or use the registers of one of their warp: such a split gives up its
issue port (R210, R226). -/
def State.feBlocked (s : State) (w : Warp) (sp : Nat) (ws : List Word) : Bool :=
  let u := w.chainUse .none ws
  (ws.any touchesMemory && s.feHeld w sp) ||
    s.ops.any fun o => o.key = w.key && !o.done && match o.kind with
      | .feload _ _ pid _ _ => (w.scoreboard sp u.wide).any fun p => p.id = pid && (u.reads.contains p.dest || u.writes.contains p.dest)
      | _ => false

/-- The words of the access stream, each with the prefix before it. -/
def accessPart : List Word → List Word
  | [] => []
  | [x] => if accessWord x then [x] else []
  | x :: y :: r => if (pfxOf x).isSome then (if accessWord y then [x, y] else []) ++ accessPart r else (if accessWord x then [x] else []) ++ accessPart (y :: r)

/-- A word of the access stream, or its prefix, reads a fixed-latency result of the execute stream that has not been written (R212). -/
def Warp.crosses (w : Warp) (sp : Nat) (ws : List Word) : Bool :=
  let u := w.chainUse .none (accessPart ws)
  (w.scoreboard sp u.wide).any fun p => p.due.isSome && p.exec && u.reads.contains p.dest

/-- A chain waits, and not for its scoreboard: behind a refill that a return has begun (R215), at a meeting point for the loads that a full
queue keeps from being pushed (R15, R211), or for one of the core's 1024 memory requests (R1). -/
def State.stallHeld (s : State) (w : Warp) (ws : List Word) : Bool :=
  w.rackNext.isSome || (w.rack.any fun (r : Rack) => r.own.isSome && !r.spill) ||
    (((ws.filterMap fun x => (decodeWord x).toOption).any meetingPoint) && w.dqWait.toList.any fun q => !q.isEmpty) ||
    (ws.any touchesMemory && decide (s.outstanding w.key.core ≥ 1024))

/-- A chain of a warp whose due results are written: the split's scoreboard (assumption 94), the write order and the queues (assumption 29;
R15, R48 to R50), the firmware handler's copies (R199), what `stallHeld` waits for, a full-empty load (R245), and the results of the
execute stream (R212). `handover`: it begins a run after a run of another split (R49). -/
def State.chainHold (s : State) (checking : Bool) (w : Warp) (sp : Nat) (handover : Bool) (ws : List Word) : Hold :=
  let u := w.chainUse .none ws
  let inFlight (var : Bool) (l : List Dest) : Bool := (w.scoreboard sp u.wide).any fun p => p.due.isNone = var && l.contains p.dest
  if inFlight true u.reads || inFlight true u.writes || inFlight false u.writes then .wait
  else if handover && w.pend.any (fun p => p.due.isSome) then .wait
  else if s.stallHeld w ws then .wait
  else if ws.any touchesMemory && s.feHeld w sp then .wait
  else if w.crosses sp ws then .wait
  else
    match w.popsHold u.pops with
    | .go =>
      match w.copyFault.find? fun f => f.reg.any fun r => u.reads.contains (.u r) with
      | some f => .trap (.engine f.va)
      | .none => if checking && inFlight false u.reads then .trap .undersized else .go
    | h => h

/-! ## Readiness (R209, R210) -/

/-- The context of a warp. -/
def State.ctxOfWarp (s : State) (w : Warp) : Nat :=
  match w.served with
  | some v => v.ctx
  | none => s.ctxOfBlk w.key.core w.key.slot

/-- The chunk that a take has fetched has room: for an `lrefill`, once the queue's items are dealt (R222). -/
def State.roomFor (s : State) (w : Warp) (p : Split) (b : Block) (n : Nat) : Bool :=
  (s.nextChain (s.ctxOfWarp w) w p).any fun x => match decodeWord x.2 with
    | .ok (.lrefill _ m) => itemRoom (b.items.drop (popc ((w.masks[m.toNat]?.getD 0) &&& p.mask).toNat 32)) n
    | .ok (.jtake _ _) => itemRoom b.items n
    | _ => false

/-- What a waiting split waits for has come. A `.retry` ends when its chain can complete, which the machine tests. -/
def State.waitOver (s : State) (c : Nat) (w : Warp) (p : Split) : Bool :=
  match p.wait with
  | none => true
  | some .retry => false
  | some (.callRoom k) => if k + 48 > w.w then (w.rackDone.any fun i => (w.splitAt i).wait = p.wait && (w.splitAt i).pc = p.pc && (w.splitAt i).mask = p.mask) else decide (w.occupancy + k ≤ w.w)
  | some .retFrame => (match w.links with | [] => true | l :: _ => !l.out || decide (l.k + 48 > w.w))
  | some (.barrier true n g) => (s.cbar c (s.fab.clusterOf w.key.core) n).gen != g
  | some (.barrier false n g) => (((s.getBlk w.key.core w.key.slot).bind fun b => b.barrier[n]?).map fun x => decide (x.gen ≠ g)).getD true
  | some (.arriveWait true n g) => (s.cbar c (s.fab.clusterOf w.key.core) n).gen != g
  | some (.arriveWait false n g) => (((s.getBlk w.key.core w.key.slot).bind fun b => b.barrier[n]?).map fun x => decide (x.gen ≠ g)).getD true
  | some (.barrierPark _ _) => false
  | some (.items _ n) => (s.getBlk w.key.core w.key.slot).any fun b => s.roomFor w p b n
  | some (.service t) => !s.fu.recs.any fun r => r.token = t
  | some _ => s.waitMet w p

/-- The warp may issue at all: not stopped, not halted, its block resident and not stopped by a forced save, its die up. -/
def State.mayRun (s : State) (w : Warp) : Bool :=
  !w.exited && !w.halted && !s.dieDown w.key.core &&
    match s.getCtx (s.ctxOfWarp w) with
    | none => false
    | some c =>
      w.level = .firmware ||
        (!c.halted && (w.level = .handler || (s.getBlk w.key.core w.key.slot).any fun b => b.life = .resident && !(b.draining && c.pre = .forced)))

/-- A `jtake`, or an `lrefill` that takes, waits while its block is named by a pre-emption, unless its chunk is fetched (R286). -/
def State.takeHeld (s : State) (w : Warp) (sp : Nat) (ws : List Word) : Bool :=
  let p := w.splitAt sp
  match s.getBlk w.key.core w.key.slot with
  | some b => b.draining && ws.any (isTake b w p) && (match p.wait with | some (.items ..) => false | _ => true)
  | none => false

/-- The words of a split's chain that have still to run (R46, R210). -/
def Split.leftOf (p : Split) (ws : List (Nat × Word)) : List (Nat × Word) :=
  ws.filter fun x => isControl x.2 || (isBarrier x.2 && decide (p.begun < 2)) || p.begun = 0

/-- The hold of a split's next chain; a packet that cannot be fetched or fails a check goes on to its trap. -/
def State.holdOf (s : State) (w : Warp) (sp : Nat) : Hold :=
  let p := w.splitAt sp
  let c := s.ctxOfWarp w
  let w := w.settle s.clock
  match p.leftOf (s.nextChain c w p) with
  | [] => .go
  | l =>
    let ws := l.map (·.2)
    if s.takeHeld w sp ws then .wait
    else s.chainHold (((s.getCtx c).map (·.checking)).getD false) w sp (p.runLen = 0 && w.lastSplit != sp) ws

/-- The split that holds a port waits for a full-empty load, with a take, or for anything else but a stall count or its scoreboard: it
gives its port up (R210, R286). -/
def State.portWaits (s : State) (w : Warp) (sp : Nat) : Bool :=
  let w' := w.settle s.clock
  let ws := ((w.splitAt sp).leftOf (s.nextChain (s.ctxOfWarp w) w' (w.splitAt sp))).map (·.2)
  s.feBlocked w' sp ws || s.takeHeld w' sp ws || s.stallHeld w' ws

/-- A split is ready: live, behind no call, with no load of its warp to issue again, and its next chain could issue. -/
def State.ready (s : State) (w : Warp) (sp : Nat) : Bool :=
  let p := w.splitAt sp
  p.st = .live && !w.behind sp && !w.reissuing && decide (p.nextIssue ≤ s.clock) && s.waitOver (s.ctxOfWarp w) w p && s.holdOf w sp != .wait

/-! ## RUN_ARBITRATION (R209) -/

/-- The ready splits of a partition of a core. -/
def State.candidates (s : State) (core part : Nat) : List (Warp × Nat) :=
  (s.allWarps.filter fun w => w.key.core = core && w.wslot / 16 = part && s.mayRun w).flatMap fun w =>
    ((List.range 4).filter fun sp => s.ready w sp).map fun sp => (w, sp)

def State.prioOf (s : State) (w : Warp) : Nat := ((s.getBlk w.key.core w.key.slot).map (·.prio)).getD 0

/-- One split goes before another: one that has lost 16 choices, the one ready longest first; then priority; then the one
whose last win lies furthest back. -/
def State.before (s : State) (a b : Warp × Nat) : Bool :=
  let x := a.1.splitAt a.2
  let y := b.1.splitAt b.2
  if x.lost ≥ 16 || y.lost ≥ 16 then decide (x.lost > y.lost) || (x.lost = y.lost && decide (x.stamp < y.stamp))
  else if s.prioOf a.1 != s.prioOf b.1 then decide (s.prioOf a.1 > s.prioOf b.1)
  else decide (x.lastWin < y.lastWin)

/-- The winner of a choice: a split of the handler warp, if one is ready. -/
def State.winner (s : State) (l : List (Warp × Nat)) : Option (Warp × Nat) :=
  match l.find? fun a => a.1.key.slot = 4 with
  | some a => some a
  | none => match l with
    | [] => none
    | a :: r => some (r.foldl (fun m b => if s.before b m then b else m) a)

/-- The other splits of a partition after a choice that was not the handler's: a ready one has lost once more. -/
def State.countLosses (s : State) (core part : Nat) (l : List (Warp × Nat)) : State :=
  (s.allWarps.filter fun w => w.key.core = core && w.wslot / 16 = part && w.key.slot != 4).foldl (fun s w =>
    let lose (i : Nat) (p : Split) : Split :=
      if l.any (fun a => a.1.key = w.key && a.2 = i) then { p with lost := p.lost + 1 } else { p with lost := 0, stamp := s.clock }
    s.setWarp { w with splits := w.splits.mapIdx lose }) s

/-- `wdepth` written, of which there are six bits and 32 entries: the newest link entries beyond it leave the chip's stack, or stale
ones come on (R20, assumption 18). -/
def Warp.setDepth (w : Warp) (v tick : Nat) : Warp :=
  let v := Nat.min (v % 64) 32
  let n := w.wdepth
  { w with links :=
      if v ≤ n then w.links.drop (n - v)
      else (List.range (v - n)).map (fun i => (⟨Config.staleLink tick i, 0, false⟩ : Link)) ++ w.links }

/-- What a split wrote to `sig`, `region`, `wbase` and `wdepth` takes effect at the start of its next run (R21); a `wbase` at or above W counts
modulo W (assumption 80). -/
def State.applyLate (s : State) (w : Warp) (sp : Nat) : Warp :=
  let p := w.splitAt sp
  p.late.foldl (fun w x =>
    let q := w.splitAt sp
    match x.1 with
    | 0x09 => w.setSplit sp { q with sig := x.2.setWidth 32, folded := [] }
    | 0x0A => w.setSplit sp (s.enterRegion q x.2 q.saved)
    | 0x0B => { w with wbase := x.2.toNat % w.w }
    | 0x0C => w.setDepth x.2.toNat s.tick
    | _ => w) (w.setSplit sp { p with late := [] })

/-- Each cycle in which a split is not ready is the last before it could become so (R209). -/
def State.noteUnready (s : State) (w : Warp) : Warp :=
  { w with splits := w.splits.mapIdx fun i p => { p with stamp := if s.mayRun w && s.ready w i then p.stamp else s.clock + 1 } }

/-- RUN_ARBITRATION: a free port of a core is given to a ready split. A win always begins a run, also after a wait that gave the port up
in the middle of one (assumption 100). -/
def execRunArbitration (core part : Nat) (s : State) : Host.Outcome State Fault Refusal :=
  let c := s.getCore core
  if decide (part ≥ 4) || (c.ports[part]?.getD none).isSome || decide (c.portAt[part]?.getD 0 > s.clock) then .next s
  else
    let l := s.candidates core part
    match s.winner l with
    | none => .next s
    | some (w, sp) =>
      let s := if w.key.slot = 4 then s else s.countLosses core part l
      let s := s.setCore { c with ports := c.ports.setIfInBounds part (some (w.key, sp)) }
      .next ({ s with nextId := s.nextId + 1, tick := s.tick + 1 }.onWarp w.key fun w =>
        s.applyLate (w.setSplit sp { w.splitAt sp with lost := 0, lastWin := s.nextId + 1, runLen := 0 }) sp)

end Sys2Proof.Machine
end

