-- ==== Sys2Proof/Machine/Cross.lean ====
section
/-!
DEFINITION. Quantisation and rotation: major 0x1F (R95 to R100, R34). Cross-lane words: majors 0x20 to 0x23
(R101 to R104).
-/
namespace Sys2Proof.Machine

/-! ## Quantisation and rotation (class X8) -/

def fv (x : Word) : FVal := fp32.decode x.toNat
def f32 (m : RMode) (v : FVal) : Word := BitVec.ofNat 32 (fp32.rnd m v)

/-- The 32 values with +0 outside E (R96, R99). -/
def blockValues (e : Word) (x : VReg) : List FVal :=
  (List.finRange 32).map fun (i : Fin 32) => if e.getLsbD i.val then fv x[i] else .num (Dy.zero false)

/-- y_i of the Walsh–Hadamard transform (R41, R96). -/
def hadamard (m : RMode) (xs : List FVal) (i : Nat) : Word :=
  let terms := (xs.zip (List.range 32)).map fun (x, j) => if popc (i &&& j) 5 % 2 = 1 then x.neg else x
  f32 m ((FVal.sum m terms).getD (.num (Dy.zero false)))

def execVhad (d a : BitVec 6) (s : State) : Host.Outcome State Fault Refusal :=
  let (x, s) := s.vsrc 2 a
  let xs := blockValues s.E x
  done (s.putV latX8 d.toNat (Vector.ofFn fun i => hadamard s.mode xs i.val))

/-- Negation by the keyed signs (R97); a NaN gives the canonical NaN. -/
def execVkflip (d a : BitVec 6) (b : BitVec 7) (s : State) : Host.Outcome State Fault Refusal :=
  let seed := s.UD b.toNat
  let (x, s) := s.vsrc 2 a
  let flip (i : Fin 32) : Word :=
    let v := if (keyed seed i.val).getLsbD 63 then (fv x[i]).neg else fv x[i]
    f32 .rn v
  done (s.putV latX8 d.toNat (Vector.ofFn flip))

/-- The values of the lanes of E, in increasing order. -/
def laneValues (e : Word) (x : VReg) : List FVal := (lanesOf e).map fun i => fv x[i]

def execVamax (d a : BitVec 6) (s : State) : Host.Outcome State Fault Refusal :=
  let (x, s) := s.vsrc 2 a
  let m := (laneValues s.E x).foldl (fun m v => FVal.max m v.abs) (.num (Dy.zero false))
  done (s.putV latX8 d.toNat (splat (f32 .rn m)))

/-- The scale exponent s of R34, or none for a block with a NaN or an infinity. -/
def mxScale (fmt : Nat) (xs : List FVal) : Option Int :=
  if xs.any (fun v => match v with | .num _ => false | _ => true) then none
  else
    let m := xs.foldl (fun m v => FVal.max m v.abs) (.num (Dy.zero false))
    match m with
    | .num d => if d.man = 0 then some (-127) else some (clampInt (-127) 127 (d.log2 - mxEmax fmt))
    | _ => none

/-- An element times 2^(−s). -/
def FVal.scale (v : FVal) (e : Int) : FVal :=
  match v with
  | .num d => .num { d with exp := d.exp + e }
  | x => x

/-- The packed codes as one number, and the scale byte (R34, R99). -/
def mxQuant (fmt : Nat) (m : RMode) (sr : Option (Nat → Nat)) (xs : List FVal) : Nat × Nat :=
  match mxFmt fmt, mxScale fmt xs with
  | some f, some sc =>
    let code (v : FVal) (i : Nat) : Nat :=
      match sr with
      | some r => f.rndStoch (r i) (v.scale (-sc))
      | none => f.rnd m (v.scale (-sc))
    ((xs.zip (List.range 32)).foldl (fun a (v, i) => a + code v i <<< (f.width * i)) 0, (sc + 127).toNat)
  | _, _ => (0, 255)

def execVqmx (d a : BitVec 6) (e : BitVec 7) (s : State) : Host.Outcome State Fault Refusal :=
  let (x, s) := s.vsrc 2 a
  let sr := if s.isSr then some fun i => keyed16 (if h : i < 32 then s.VD s.pfx.v.toNat ⟨i, h⟩ else 0) i else none
  let (codes, sc) := mxQuant e.toNat s.mode sr (blockValues s.E x)
  done (s.putV latX8 d.toNat (Vector.ofFn fun i =>
    if i.val = 31 then BitVec.ofNat 32 (scaleWord sc) else BitVec.ofNat 32 (codes >>> (32 * i.val))))

/-- The value of element L of a block in the layout of R99 (R100). -/
def mxDequant (fmt : Nat) (m : RMode) (x : VReg) (l : Nat) : Word :=
  match mxFmt fmt with
  | none => 0
  | some f =>
    let sw := x[31].toNat % 65536
    let all := (List.finRange 8).foldl (fun a i => a + x[i.val].toNat <<< (32 * i.val)) 0
    if badScale sw || sw % 256 = 255 then nanW'
    else f32 m ((f.decode ((all >>> (f.width * l)) % 2 ^ f.width)).scale ((sw % 256 : Nat) - 127))
where
  nanW' : Word := 0x7FC00000#32

def execVdqmx (d a : BitVec 6) (e : BitVec 7) (s : State) : Host.Outcome State Fault Refusal :=
  let (x, s) := s.vsrc 2 a
  done (s.putV latX8 d.toNat (Vector.ofFn fun i => mxDequant e.toNat s.mode x i.val))

/-! ## Shuffles: major 0x20 (R101), class X8 -/

/-- vd[L] := va[s(L)]. -/
def shuffle (d a : BitVec 6) (src : Fin 32 → Nat) (s : State) : State :=
  let (x, s) := s.vsrc 2 a
  s.putV latX8 d.toNat (Vector.ofFn fun i => x[src i]?.getD 0)

def execVshflIdx (d a b : BitVec 6) (s : State) : Host.Outcome State Fault Refusal :=
  let (x, y, s) := s.vsrc2 a b
  done (s.putV latX8 d.toNat (Vector.ofFn fun i => x[y[i].toNat % 32]?.getD 0))

def execVshflXor (d a : BitVec 6) (n : BitVec 5) (s : State) : Host.Outcome State Fault Refusal := done (shuffle d a (fun i => i.val ^^^ n.toNat) s)

def execVshflUp (d a : BitVec 6) (n : BitVec 5) (s : State) : Host.Outcome State Fault Refusal :=
  done (shuffle d a (fun i => if i.val < n.toNat then i.val else i.val - n.toNat) s)

def execVshflDn (d a : BitVec 6) (n : BitVec 5) (s : State) : Host.Outcome State Fault Refusal :=
  done (shuffle d a (fun i => if i.val + n.toNat > 31 then i.val else i.val + n.toNat) s)

/-- The register as 64 halves. -/
def execVshflIdxH2 (d a b : BitVec 6) (s : State) : Host.Outcome State Fault Refusal :=
  let (x, y, s) := s.vsrc2 a b
  let pick (t : Nat) : BitVec 16 := half (x[t / 2]?.getD 0) (t % 2)
  done (s.putV latX8 d.toNat (Vector.ofFn fun i =>
    ofHalves (pick (y[i].toNat % 64)) (pick ((y[i].toNat >>> 16) % 64))))

/-! ## Match, ballot and lane rank: major 0x21 (R102), class X8 -/

/-- Bit M set for each M in E that satisfies f. -/
def laneBits (e : Word) (f : Fin 32 → Bool) : Word :=
  (List.finRange 32).foldl (fun a (i : Fin 32) => if e.getLsbD i.val && f i then a ||| (1#32 <<< i.val) else a) 0#32

def execVmatch (d a : BitVec 6) (s : State) : Host.Outcome State Fault Refusal :=
  let (x, s) := s.vsrc 2 a
  done (s.putMatch latX8 d.toNat (Vector.ofFn fun i => laneBits s.E fun j => x[j] == x[i]))

def execVmatchNum (d a : BitVec 6) (s : State) : Host.Outcome State Fault Refusal :=
  let (x, s) := s.vsrc 2 a
  done (s.putMatch latX8 d.toNat (Vector.ofFn fun i => laneBits s.E fun j => (fv x[j]).numEq (fv x[i])))

def execVballot (d a : BitVec 6) (s : State) : Host.Outcome State Fault Refusal :=
  let (x, s) := s.vsrc 2 a
  done (s.putMatch latX8 d.toNat (splat (laneBits s.E fun j => x[j] != 0)))

/-- The number of lanes in E below L; an ordinary destination (R71). -/
def execVlaneid (d : BitVec 6) (s : State) : Host.Outcome State Fault Refusal :=
  done (s.putV latX8 d.toNat (Vector.ofFn fun i => BitVec.ofNat 32 (popc (s.E.toNat % 2 ^ i.val) 32)))

/-! ## Reductions and scans: major 0x22 (R103), class X16 -/

/-- One result for every lane in E. -/
def reduceI (f : Word → Word → Word) (d a : BitVec 6) (s : State) : State :=
  let (x, s) := s.vsrc 2 a
  match (lanesOf s.E).map fun i => x[i] with
  | [] => s.putV latX16 d.toNat zeroVec
  | y :: r => s.putV latX16 d.toNat (splat (r.foldl f y))

def reduceF (f : List FVal → Option FVal) (m : RMode) (d a : BitVec 6) (s : State) : State :=
  let (x, s) := s.vsrc 2 a
  s.putV latX16 d.toNat (splat (f32 m ((f (laneValues s.E x)).getD (.num (Dy.zero false)))))

def foldF (f : FVal → FVal → FVal) : List FVal → Option FVal
  | [] => none
  | y :: r => some (r.foldl f y)

def execVredsumI32 (d a : BitVec 6) (s : State) : Host.Outcome State Fault Refusal := done (reduceI (fun x y => x + y) d a s)
def execVredsumF32 (d a : BitVec 6) (s : State) : Host.Outcome State Fault Refusal := done (reduceF (FVal.sum s.mode) s.mode d a s)
def execVredmaxI32 (d a : BitVec 6) (s : State) : Host.Outcome State Fault Refusal := done (reduceI smax d a s)
def execVredmaxN32 (d a : BitVec 6) (s : State) : Host.Outcome State Fault Refusal := done (reduceI umax d a s)
def execVredmaxF32 (d a : BitVec 6) (s : State) : Host.Outcome State Fault Refusal := done (reduceF (foldF FVal.max) .rn d a s)
def execVredminI32 (d a : BitVec 6) (s : State) : Host.Outcome State Fault Refusal := done (reduceI smin d a s)
def execVredminN32 (d a : BitVec 6) (s : State) : Host.Outcome State Fault Refusal := done (reduceI umin d a s)
def execVredminF32 (d a : BitVec 6) (s : State) : Host.Outcome State Fault Refusal := done (reduceF (foldF FVal.min) .rn d a s)

/-- The lanes of E up to L, or below L (R103). -/
def scanLanes (e : Word) (excl : Bool) (l : Nat) : List (Fin 32) :=
  (lanesOf e).filter fun i => if excl then decide (i.val < l) else decide (i.val ≤ l)

def scanI (excl : Bool) (d a : BitVec 6) (s : State) : State :=
  let (x, s) := s.vsrc 2 a
  s.putV latX16 d.toNat (Vector.ofFn fun i => (scanLanes s.E excl i.val).foldl (fun t j => t + x[j]) 0)

def scanF (excl : Bool) (d a : BitVec 6) (s : State) : State :=
  let (x, s) := s.vsrc 2 a
  s.putV latX16 d.toNat (Vector.ofFn fun i =>
    f32 s.mode ((FVal.sum s.mode ((scanLanes s.E excl i.val).map fun j => fv x[j])).getD (.num (Dy.zero false))))

def execVscanI32 (d a : BitVec 6) (s : State) : Host.Outcome State Fault Refusal := done (scanI false d a s)
def execVscanF32 (d a : BitVec 6) (s : State) : Host.Outcome State Fault Refusal := done (scanF false d a s)
def execVscanExI32 (d a : BitVec 6) (s : State) : Host.Outcome State Fault Refusal := done (scanI true d a s)
def execVscanExF32 (d a : BitVec 6) (s : State) : Host.Outcome State Fault Refusal := done (scanF true d a s)

/-! ## Lane read and write: major 0x23 (R104), class X8 -/

def execVrdl (d a : BitVec 6) (b : BitVec 7) (s : State) : Host.Outcome State Fault Refusal :=
  let n := (s.U b.toNat).toNat % 32
  let (x, s) := s.vsrc 2 a
  done (s.putU latX8 d.toNat (x[n]?.getD 0))

def execVwrl (d : BitVec 6) (b : BitVec 7) (s : State) : Host.Outcome State Fault Refusal := done (s.putV latX8 d.toNat (splat (s.U b.toNat)))

def execVrdlD (d a : BitVec 6) (b : BitVec 7) (s : State) : Host.Outcome State Fault Refusal :=
  let n := (s.U b.toNat).toNat % 32
  done (s.putUD latX8 d.toNat ((s.V (a.toNat + 1))[n]?.getD 0 ++ (s.V a.toNat)[n]?.getD 0))

def execVwrlD (d : BitVec 6) (b : BitVec 7) (s : State) : Host.Outcome State Fault Refusal :=
  done ((s.putV latX8 d.toNat (splat (s.U b.toNat))).putV latX8 (d.toNat + 1) (splat (s.U (b.toNat + 1))))

end Sys2Proof.Machine
end

