-- ==== Sys2Proof/Machine/Special.lean ====
section
/-!
DEFINITION. Special functions: major 0x1D (R94). `vfrcp` and `vfsqrt` are correctly rounded. The result bits of the
other seven are the implementation's: a free value of Config, taken when it keeps the error bound, the nearest value
otherwise (assumption 9); the special inputs and the exact cases stand as the table gives them.
The real value is computed to more than 40 bits. `vfexp2` of an integer below −149 is no FP32 value: the model gives 2^x rounded to
nearest-even, +0 (assumption 9).
-/
namespace Sys2Proof.Machine

/-! ## Fixed point with 128 fraction bits -/

def fxOne : Int := 2 ^ 128
def fxMul (a b : Int) : Int := (a * b) / 2 ^ 128
/-- ln 2, log2 e, and π with 320 fraction bits. -/
def fxLn2 : Int := 0xb17217f7d1cf79abc9e3b39803f2f6af
def fxLog2e : Int := 0x171547652b82fe1777d0ffda0d23a7d12
def pi320 : Int := 0x3243f6a8885a308d313198a2e03707344a4093822299f31d0082efa98ec4e6c89452821e638d01377

/-- d in units of 2^−n, truncated. -/
def Dy.toFx (d : Dy) (n : Nat) : Int :=
  let e := d.exp + n
  let m : Int := if e ≥ 0 then (d.man <<< e.toNat : Nat) else (d.man >>> (-e).toNat : Nat)
  if d.neg then -m else m

def Dy.ofFx (x : Int) (n : Nat) : Dy := ⟨x < 0, x.natAbs, -(n : Int)⟩

/-- Σ x^k / k! by Horner, for |x| ≤ 1. -/
def fxExpAux (x : Int) : Nat → Int → Int
  | 0, a => a
  | k + 1, a => fxExpAux x k (fxOne + fxMul x a / ((k : Int) + 1))
def fxExp (x : Int) : Int := fxExpAux x 40 fxOne

/-- Σ of the sine series (odd) or the cosine series (even) by Horner, for |x| ≤ 7. -/
def fxTrigAux (x2 : Int) (odd : Nat) : Nat → Int → Int
  | 0, a => a
  | k + 1, a => fxTrigAux x2 odd k (fxOne - fxMul x2 a / (((2 * k + 1 + odd) * (2 * k + 2 + odd) : Nat) : Int))
def fxSin (x : Int) : Int := fxMul x (fxTrigAux (fxMul x x) 1 40 fxOne)
def fxCos (x : Int) : Int := fxTrigAux (fxMul x x) 0 40 fxOne

/-- log2 of m in [1, 2), by squaring: `n` bits. -/
def fxLog2Aux : Nat → Int → Int → Int
  | 0, _, acc => acc
  | n + 1, y, acc =>
    let y2 := fxMul y y
    if y2 ≥ 2 * fxOne then fxLog2Aux n (y2 / 2) (acc * 2 + 1) else fxLog2Aux n y2 (acc * 2)

/-- 2^x for x in units of 2^−128. -/
def dyExp2 (x : Int) : Dy :=
  let k := x / fxOne
  let m := fxExp (fxMul (x - k * fxOne) fxLn2)
  ⟨false, m.natAbs, k - 128⟩

/-- a / b of fixed-point values, b positive. -/
def fxDiv (a b : Int) : Int := (a * 2 ^ 128) / b

/-- A value of 2^−128 units beside `a`, on the side that the sign of a small x gives: one unit at least, so that a value that only
nears a power of two keeps the ulp of its own binade. -/
def fxBeside (a x : Int) (neg : Bool) : Dy := ⟨false, (if neg then a - max 1 x else a + max 1 x).natAbs, -128⟩

/-- The greatest value below one that 128 fraction bits hold. -/
def belowOne (neg : Bool) : Dy := ⟨neg, (fxOne - 1).natAbs, -128⟩

/-- The real value of function `fn` at an ordinary input, to more than 40 bits, and on the same side of a power of two. -/
def specialReal (fn : Nat) (d : Dy) : Dy :=
  match fn with
  | 1 => (Dy.sqrt d).recip
  | 3 => if d.log2 < -64 then fxBeside fxOne (fxMul (Dy.toFx { d with neg := false } 128) fxLn2) d.neg else dyExp2 (d.toFx 128)
  | 4 =>
    let k := d.log2
    let m := Dy.toFx ⟨false, d.man, d.exp - k⟩ 128
    Dy.ofFx (k * 2 ^ 64 + fxLog2Aux 64 m 0) 64
  | 5 => Dy.ofFx (fxSin ((d.toFx 320 % (2 * pi320)) / 2 ^ 192)) 128
  | 6 => Dy.ofFx (fxCos ((d.toFx 320 % (2 * pi320)) / 2 ^ 192)) 128
  | 7 =>
    if d.man = 0 then d
    else if d.log2 < -13 then ⟨d.neg, d.man * (fxOne - max 1 (fxMul (d.toFx 128) (d.toFx 128) / 3)).natAbs, d.exp - 128⟩
    else if d.log2 ≥ 5 then belowOne d.neg
    else
      let e := (dyExp2 (fxMul (2 * d.toFx 128) fxLog2e)).toFx 128
      Dy.ofFx (fxDiv (e - fxOne) (e + fxOne)) 128
  | _ =>
    let e := dyExp2 (fxMul (d.toFx 128) fxLog2e)
    if d.neg ∧ d.log2 ≥ 5 then e
    else if d.log2 ≥ 6 then belowOne false
    else if d.man = 0 then ⟨false, 1, -1⟩
    else if d.log2 < -64 then fxBeside (fxOne / 2) (Dy.toFx { d with neg := false } 128 / 4) d.neg
    else Dy.ofFx (fxDiv (e.toFx 128) (fxOne + e.toFx 128)) 128

/-- The error the spec allows at an input, in units of the binade of the value, or absolute. -/
def specialBound (fn : Nat) (x t : Dy) : Dy :=
  let ulp : Dy := ⟨false, 1, (if t.man = 0 then -149 else max (t.log2 - 23) (-149))⟩
  match fn with
  | 1 => ulp
  | 4 => if Dy.le ⟨false, 1, -1⟩ x && Dy.le x ⟨false, 2, 0⟩ then (if ulp.log2 + 1 < -22 then ⟨false, 1, -22⟩ else ⟨false, 2, ulp.exp⟩) else ⟨false, 2, ulp.exp⟩
  | 5 => ⟨false, 1, -22⟩
  | 6 => ⟨false, 1, -22⟩
  | _ => ⟨false, 2, ulp.exp⟩

/-- The free result where it keeps the bound; the nearest value otherwise. -/
def specialChoose (fn : Nat) (w : Word) (x : Dy) : Word :=
  let t := specialReal fn x
  let v := Config.special fn w
  let near := BitVec.ofNat 32 (fp32.rnd .rn (.num t))
  match fp32.decode v.toNat with
  | .num dv =>
    let diff := Dy.add .rn dv { t with neg := !t.neg }
    if Dy.le { diff with neg := false } (specialBound fn x t) then v else near
  | _ => near

def infW (neg : Bool) : Word := if neg then 0xFF800000#32 else 0x7F800000#32
def zeroW (neg : Bool) : Word := if neg then 0x80000000#32 else 0#32
def nanW : Word := 0x7FC00000#32
def oneW (neg : Bool) : Word := if neg then 0xBF800000#32 else 0x3F800000#32

/-- A dyadic that is an integer, and that integer. -/
def Dy.isInt (d : Dy) : Bool := d.exp ≥ 0 || d.man % 2 ^ (-d.exp).toNat == 0

/-- The special functions of R94 on one lane. `vfexp2` of an integer of -150 or less, where 2^x is no FP32 value, is +0 (assumption
9). -/
def specialFn (fn : Nat) (mode : RMode) (w : Word) : Word :=
  match fn, fp32.decode w.toNat with
  | _, .nan => nanW
  | 0, .inf n => zeroW n
  | 0, .num d => if d.man = 0 then infW d.neg else BitVec.ofNat 32 (fp32.rnd mode (.num d.recip))
  | 1, .inf n => if n then nanW else zeroW false
  | 1, .num d => if d.man = 0 then infW d.neg else if d.neg then nanW else specialChoose 1 w d
  | 2, .inf n => if n then nanW else infW false
  | 2, .num d => if d.man = 0 then w else if d.neg then nanW else BitVec.ofNat 32 (fp32.rnd mode (.num d.sqrt))
  | 3, .inf n => if n then zeroW false else infW false
  | 3, .num d =>
    if d.man = 0 then oneW false
    else if !d.neg && decide (d.log2 ≥ 7) then infW false
    else if d.isInt then (if d.log2 ≥ 9 then zeroW false else BitVec.ofNat 32 (fp32.rnd .rn (.num ⟨false, 1, d.toInt .rz⟩)))
    else if d.neg && decide (d.log2 ≥ 9) then specialTiny 3 w
    else specialChoose 3 w d
  | 4, .inf n => if n then nanW else infW false
  | 4, .num d =>
    if d.man = 0 then infW true else if d.neg then nanW
    else if w = oneW false then zeroW false else specialChoose 4 w d
  | 5, .inf _ => nanW
  | 5, .num d => if d.man = 0 then w else specialChoose 5 w d
  | 6, .inf _ => nanW
  | 6, .num d => specialChoose 6 w d
  | 7, .inf n => oneW n
  | 7, .num d => if d.man = 0 then w else specialChoose 7 w d
  | _, .inf n => if n then zeroW false else oneW false
  | _, .num d => if d.neg && decide (d.log2 ≥ 9) then specialTiny 8 w else specialChoose 8 w d
where
  /-- A result below half the least subnormal, within 2 ulp. -/
  specialTiny (fn : Nat) (w : Word) : Word :=
    let v := Config.special fn w
    if v.toNat ≤ 2 then v else 0#32

def specialWord (fn : Nat) (d a : BitVec 6) (s : State) : State := vec1 latX16 (specialFn fn s.mode) d a s

def execVfrcp (d a : BitVec 6) (s : State) : Host.Outcome State Fault Refusal := done (specialWord 0 d a s)
def execVfrsq (d a : BitVec 6) (s : State) : Host.Outcome State Fault Refusal := done (specialWord 1 d a s)
def execVfsqrt (d a : BitVec 6) (s : State) : Host.Outcome State Fault Refusal := done (specialWord 2 d a s)
def execVfexp2 (d a : BitVec 6) (s : State) : Host.Outcome State Fault Refusal := done (specialWord 3 d a s)
def execVflog2 (d a : BitVec 6) (s : State) : Host.Outcome State Fault Refusal := done (specialWord 4 d a s)
def execVfsin (d a : BitVec 6) (s : State) : Host.Outcome State Fault Refusal := done (specialWord 5 d a s)
def execVfcos (d a : BitVec 6) (s : State) : Host.Outcome State Fault Refusal := done (specialWord 6 d a s)
def execVftanh (d a : BitVec 6) (s : State) : Host.Outcome State Fault Refusal := done (specialWord 7 d a s)
def execVfsigm (d a : BitVec 6) (s : State) : Host.Outcome State Fault Refusal := done (specialWord 8 d a s)

end Sys2Proof.Machine
end

