-- ==== Sys2Proof/Machine/Dispatch.lean ====
section
/-!
DEFINITION. The meaning of each instruction and event: one arm per constructor of `Instr`.
-/
namespace Sys2Proof.Machine

def exec (i : Instr) (s : State) : Host.Outcome State Fault Refusal :=
  match i with
  | .pfx m z r v u q => Sys2Proof.Machine.execPfx m z r v u q s
  | .sadd d a x => Sys2Proof.Machine.execSadd d a x s
  | .ssub d a x => Sys2Proof.Machine.execSsub d a x s
  | .smul d a x => Sys2Proof.Machine.execSmul d a x s
  | .smulhI32 d a => Sys2Proof.Machine.execSmulhI32 d a s
  | .smulhN32 d a => Sys2Proof.Machine.execSmulhN32 d a s
  | .sdivI32 d a => Sys2Proof.Machine.execSdivI32 d a s
  | .sdivN32 d a => Sys2Proof.Machine.execSdivN32 d a s
  | .sremI32 d a => Sys2Proof.Machine.execSremI32 d a s
  | .sremN32 d a => Sys2Proof.Machine.execSremN32 d a s
  | .sminI d a x => Sys2Proof.Machine.execSminI d a x s
  | .sminN d a x => Sys2Proof.Machine.execSminN d a x s
  | .smaxI d a x => Sys2Proof.Machine.execSmaxI d a x s
  | .smaxN d a x => Sys2Proof.Machine.execSmaxN d a x s
  | .sand d a x => Sys2Proof.Machine.execSand d a x s
  | .sor d a x => Sys2Proof.Machine.execSor d a x s
  | .sxor d a x => Sys2Proof.Machine.execSxor d a x s
  | .sandn d a x => Sys2Proof.Machine.execSandn d a x s
  | .sshl d a x => Sys2Proof.Machine.execSshl d a x s
  | .sshr d a x => Sys2Proof.Machine.execSshr d a x s
  | .ssar d a x => Sys2Proof.Machine.execSsar d a x s
  | .sbfe d a x => Sys2Proof.Machine.execSbfe d a x s
  | .sbfi d a => Sys2Proof.Machine.execSbfi d a s
  | .sclz d a x => Sys2Proof.Machine.execSclz d a x s
  | .spopc d a x => Sys2Proof.Machine.execSpopc d a x s
  | .smov d a x => Sys2Proof.Machine.execSmov d a x s
  | .ssel d a x p => Sys2Proof.Machine.execSsel d a x p s
  | .saddi d x1 => Sys2Proof.Machine.execSaddi d x1 s
  | .smovi d x1 => Sys2Proof.Machine.execSmovi d x1 s
  | .smovh d x1 => Sys2Proof.Machine.execSmovh d x1 s
  | .scmp p c a b x => Sys2Proof.Machine.execScmp p c a b x s
  | .scmpi p c a x3 x => Sys2Proof.Machine.execScmpi p c a x3 x s
  | .srd d r => Sys2Proof.Machine.execSrd d r s
  | .srdD d r => Sys2Proof.Machine.execSrdD d r s
  | .srdV v => Sys2Proof.Machine.execSrdV v s
  | .swr r a => Sys2Proof.Machine.execSwr r a s
  | .swrD r a => Sys2Proof.Machine.execSwrD r a s
  | .plog p b a u => Sys2Proof.Machine.execPlog p b a u s
  | .plogM p b a u => Sys2Proof.Machine.execPlogM p b a u s
  | .bra p x1 => Sys2Proof.Machine.execBra p x1 s
  | .braNot p x1 => Sys2Proof.Machine.execBraNot p x1 s
  | .brcAny m x1 => Sys2Proof.Machine.execBrcAny m x1 s
  | .brcAll m x1 => Sys2Proof.Machine.execBrcAll m x1 s
  | .brcNone m x1 => Sys2Proof.Machine.execBrcNone m x1 s
  | .vbra m x1 => Sys2Proof.Machine.execVbra m x1 s
  | .vbraNot m x1 => Sys2Proof.Machine.execVbraNot m x1 s
  | .call x0 x1 => Sys2Proof.Machine.execCall x0 x1 s
  | .calli n x1 => Sys2Proof.Machine.execCalli n x1 s
  | .leave n => Sys2Proof.Machine.execLeave n s
  | .arrive n => Sys2Proof.Machine.execArrive n s
  | .await p n => Sys2Proof.Machine.execAwait p n s
  | .bsync p n => Sys2Proof.Machine.execBsync p n s
  | .bmemb q a n => Sys2Proof.Machine.execBmemb q a n s
  | .cbarrive n => Sys2Proof.Machine.execCbarrive n s
  | .cbawait p n => Sys2Proof.Machine.execCbawait p n s
  | .waitc c n => Sys2Proof.Machine.execWaitc c n s
  | .sigck x0 => Sys2Proof.Machine.execSigck x0 s
  | .jtake g q => Sys2Proof.Machine.execJtake g q s
  | .jspawn g => Sys2Proof.Machine.execJspawn g s
  | .jpop g p => Sys2Proof.Machine.execJpop g p s
  | .jsteal g => Sys2Proof.Machine.execJsteal g s
  | .lrefill v m => Sys2Proof.Machine.execLrefill v m s
  | .vadd d a b => Sys2Proof.Machine.execVadd d a b s
  | .vsub d a b => Sys2Proof.Machine.execVsub d a b s
  | .vmul d a b => Sys2Proof.Machine.execVmul d a b s
  | .vmulhI32 d a b => Sys2Proof.Machine.execVmulhI32 d a b s
  | .vmulhN32 d a b => Sys2Proof.Machine.execVmulhN32 d a b s
  | .vmad d a b => Sys2Proof.Machine.execVmad d a b s
  | .vabsdI32 d a b => Sys2Proof.Machine.execVabsdI32 d a b s
  | .vand d a b => Sys2Proof.Machine.execVand d a b s
  | .vor d a b => Sys2Proof.Machine.execVor d a b s
  | .vxor d a b => Sys2Proof.Machine.execVxor d a b s
  | .vandn d a b => Sys2Proof.Machine.execVandn d a b s
  | .vshl d a b => Sys2Proof.Machine.execVshl d a b s
  | .vshr d a b => Sys2Proof.Machine.execVshr d a b s
  | .vsar d a b => Sys2Proof.Machine.execVsar d a b s
  | .vclz d a => Sys2Proof.Machine.execVclz d a s
  | .vpopc d a => Sys2Proof.Machine.execVpopc d a s
  | .vaddi d a x2 => Sys2Proof.Machine.execVaddi d a x2 s
  | .vmovi d x1 => Sys2Proof.Machine.execVmovi d x1 s
  | .vmovh d x1 => Sys2Proof.Machine.execVmovh d x1 s
  | .vaddH2 d a b => Sys2Proof.Machine.execVaddH2 d a b s
  | .vaddsH2 d a b => Sys2Proof.Machine.execVaddsH2 d a b s
  | .vsubH2 d a b => Sys2Proof.Machine.execVsubH2 d a b s
  | .vsubsH2 d a b => Sys2Proof.Machine.execVsubsH2 d a b s
  | .vminH2 d a b => Sys2Proof.Machine.execVminH2 d a b s
  | .vmaxH2 d a b => Sys2Proof.Machine.execVmaxH2 d a b s
  | .vacsH2 d a b => Sys2Proof.Machine.execVacsH2 d a b s
  | .vaddB4 d a b => Sys2Proof.Machine.execVaddB4 d a b s
  | .vaddsB4 d a b => Sys2Proof.Machine.execVaddsB4 d a b s
  | .vminB4 d a b => Sys2Proof.Machine.execVminB4 d a b s
  | .vmaxB4 d a b => Sys2Proof.Machine.execVmaxB4 d a b s
  | .vabsdB4 d a b => Sys2Proof.Machine.execVabsdB4 d a b s
  | .vdot4 d a b x y z => Sys2Proof.Machine.execVdot4 d a b x y z s
  | .vdot8 d a b x y z => Sys2Proof.Machine.execVdot8 d a b x y z s
  | .vcmpEqI32 m a b => Sys2Proof.Machine.execVcmpEqI32 m a b s
  | .vcmpNeI32 m a b => Sys2Proof.Machine.execVcmpNeI32 m a b s
  | .vcmpLtI32 m a b => Sys2Proof.Machine.execVcmpLtI32 m a b s
  | .vcmpLeI32 m a b => Sys2Proof.Machine.execVcmpLeI32 m a b s
  | .vcmpLtN32 m a b => Sys2Proof.Machine.execVcmpLtN32 m a b s
  | .vcmpLeN32 m a b => Sys2Proof.Machine.execVcmpLeN32 m a b s
  | .vsel d a b => Sys2Proof.Machine.execVsel d a b s
  | .vmov d a => Sys2Proof.Machine.execVmov d a s
  | .vbcast d a n => Sys2Proof.Machine.execVbcast d a n s
  | .vminI32 d a b => Sys2Proof.Machine.execVminI32 d a b s
  | .vminN32 d a b => Sys2Proof.Machine.execVminN32 d a b s
  | .vmaxI32 d a b => Sys2Proof.Machine.execVmaxI32 d a b s
  | .vmaxN32 d a b => Sys2Proof.Machine.execVmaxN32 d a b s
  | .vbfe d a b => Sys2Proof.Machine.execVbfe d a b s
  | .vbfi d a b => Sys2Proof.Machine.execVbfi d a b s
  | .vpackH2 d a b => Sys2Proof.Machine.execVpackH2 d a b s
  | .vpackB4 d a b => Sys2Proof.Machine.execVpackB4 d a b s
  | .vunpackI16 d a => Sys2Proof.Machine.execVunpackI16 d a s
  | .vunpackN16 d a => Sys2Proof.Machine.execVunpackN16 d a s
  | .vunpackI8 d a => Sys2Proof.Machine.execVunpackI8 d a s
  | .vunpackN8 d a => Sys2Proof.Machine.execVunpackN8 d a s
  | .vfaddF32 d a b => Sys2Proof.Machine.execVfaddF32 d a b s
  | .vfsubF32 d a b => Sys2Proof.Machine.execVfsubF32 d a b s
  | .vfmulF32 d a b => Sys2Proof.Machine.execVfmulF32 d a b s
  | .vfminF32 d a b => Sys2Proof.Machine.execVfminF32 d a b s
  | .vfmaxF32 d a b => Sys2Proof.Machine.execVfmaxF32 d a b s
  | .vfabsF32 d a => Sys2Proof.Machine.execVfabsF32 d a s
  | .vfnegF32 d a => Sys2Proof.Machine.execVfnegF32 d a s
  | .vfcsgnF32 d a b => Sys2Proof.Machine.execVfcsgnF32 d a b s
  | .vfaddH2 d a b => Sys2Proof.Machine.execVfaddH2 d a b s
  | .vfsubH2 d a b => Sys2Proof.Machine.execVfsubH2 d a b s
  | .vfmulH2 d a b => Sys2Proof.Machine.execVfmulH2 d a b s
  | .vfminH2 d a b => Sys2Proof.Machine.execVfminH2 d a b s
  | .vfmaxH2 d a b => Sys2Proof.Machine.execVfmaxH2 d a b s
  | .vfabsH2 d a => Sys2Proof.Machine.execVfabsH2 d a s
  | .vfnegH2 d a => Sys2Proof.Machine.execVfnegH2 d a s
  | .vfcsgnH2 d a b => Sys2Proof.Machine.execVfcsgnH2 d a b s
  | .vfaddBf2 d a b => Sys2Proof.Machine.execVfaddBf2 d a b s
  | .vfsubBf2 d a b => Sys2Proof.Machine.execVfsubBf2 d a b s
  | .vfmulBf2 d a b => Sys2Proof.Machine.execVfmulBf2 d a b s
  | .vfminBf2 d a b => Sys2Proof.Machine.execVfminBf2 d a b s
  | .vfmaxBf2 d a b => Sys2Proof.Machine.execVfmaxBf2 d a b s
  | .vfabsBf2 d a => Sys2Proof.Machine.execVfabsBf2 d a s
  | .vfnegBf2 d a => Sys2Proof.Machine.execVfnegBf2 d a s
  | .vfcsgnBf2 d a b => Sys2Proof.Machine.execVfcsgnBf2 d a b s
  | .vffma d a b f => Sys2Proof.Machine.execVffma d a b f s
  | .vffms d a b f => Sys2Proof.Machine.execVffms d a b f s
  | .vfnma d a b f => Sys2Proof.Machine.execVfnma d a b f s
  | .vcvt d a x y e => Sys2Proof.Machine.execVcvt d a x y e s
  | .vfrcp d a => Sys2Proof.Machine.execVfrcp d a s
  | .vfrsq d a => Sys2Proof.Machine.execVfrsq d a s
  | .vfsqrt d a => Sys2Proof.Machine.execVfsqrt d a s
  | .vfexp2 d a => Sys2Proof.Machine.execVfexp2 d a s
  | .vflog2 d a => Sys2Proof.Machine.execVflog2 d a s
  | .vfsin d a => Sys2Proof.Machine.execVfsin d a s
  | .vfcos d a => Sys2Proof.Machine.execVfcos d a s
  | .vftanh d a => Sys2Proof.Machine.execVftanh d a s
  | .vfsigm d a => Sys2Proof.Machine.execVfsigm d a s
  | .vfcmpF32 m a b c => Sys2Proof.Machine.execVfcmpF32 m a b c s
  | .vfcmpPacked d a b f c => Sys2Proof.Machine.execVfcmpPacked d a b f c s
  | .vhad d a => Sys2Proof.Machine.execVhad d a s
  | .vkflip d a b => Sys2Proof.Machine.execVkflip d a b s
  | .vamax d a => Sys2Proof.Machine.execVamax d a s
  | .vqmx d a e => Sys2Proof.Machine.execVqmx d a e s
  | .vdqmx d a e => Sys2Proof.Machine.execVdqmx d a e s
  | .vshflIdx d a b => Sys2Proof.Machine.execVshflIdx d a b s
  | .vshflXor d a n => Sys2Proof.Machine.execVshflXor d a n s
  | .vshflUp d a n => Sys2Proof.Machine.execVshflUp d a n s
  | .vshflDn d a n => Sys2Proof.Machine.execVshflDn d a n s
  | .vshflIdxH2 d a b => Sys2Proof.Machine.execVshflIdxH2 d a b s
  | .vmatch d a => Sys2Proof.Machine.execVmatch d a s
  | .vmatchNum d a => Sys2Proof.Machine.execVmatchNum d a s
  | .vballot d a => Sys2Proof.Machine.execVballot d a s
  | .vlaneid d => Sys2Proof.Machine.execVlaneid d s
  | .vredsumI32 d a => Sys2Proof.Machine.execVredsumI32 d a s
  | .vredsumF32 d a => Sys2Proof.Machine.execVredsumF32 d a s
  | .vredmaxI32 d a => Sys2Proof.Machine.execVredmaxI32 d a s
  | .vredmaxN32 d a => Sys2Proof.Machine.execVredmaxN32 d a s
  | .vredmaxF32 d a => Sys2Proof.Machine.execVredmaxF32 d a s
  | .vredminI32 d a => Sys2Proof.Machine.execVredminI32 d a s
  | .vredminN32 d a => Sys2Proof.Machine.execVredminN32 d a s
  | .vredminF32 d a => Sys2Proof.Machine.execVredminF32 d a s
  | .vscanI32 d a => Sys2Proof.Machine.execVscanI32 d a s
  | .vscanF32 d a => Sys2Proof.Machine.execVscanF32 d a s
  | .vscanExI32 d a => Sys2Proof.Machine.execVscanExI32 d a s
  | .vscanExF32 d a => Sys2Proof.Machine.execVscanExF32 d a s
  | .vrdl d a b => Sys2Proof.Machine.execVrdl d a b s
  | .vwrl d b => Sys2Proof.Machine.execVwrl d b s
  | .vrdlD d a b => Sys2Proof.Machine.execVrdlD d a b s
  | .vwrlD d b => Sys2Proof.Machine.execVwrlD d b s
  | .vld v p m z q x5 => Sys2Proof.Machine.execVld v p m z q x5 s
  | .vst v p m z q x5 => Sys2Proof.Machine.execVst v p m z q x5 s
  | .sld v p m z q x5 => Sys2Proof.Machine.execSld v p m z q x5 s
  | .sst v p m z q x5 => Sys2Proof.Machine.execSst v p m z q x5 s
  | .vgld v p m z q h => Sys2Proof.Machine.execVgld v p m z q h s
  | .vgst v p m z q h => Sys2Proof.Machine.execVgst v p m z q h s
  | .vatom v p o r c y => Sys2Proof.Machine.execVatom v p o r c y s
  | .catom v p o r n y => Sys2Proof.Machine.execCatom v p o r n y s
  | .cfaddo v p x2 => Sys2Proof.Machine.execCfaddo v p x2 s
  | .cline v p o => Sys2Proof.Machine.execCline v p o s
  | .cabandon p x1 => Sys2Proof.Machine.execCabandon p x1 s
  | .fence o c => Sys2Proof.Machine.execFence o c s
  | .accrd v l r => Sys2Proof.Machine.execAccrd v l r s
  | .accwr v l r => Sys2Proof.Machine.execAccwr v l r s
  | .cpy g d y x3 => Sys2Proof.Machine.execCpy g d y x3 s
  | .cpyo g => Sys2Proof.Machine.execCpyo g s
  | .cpyr g => Sys2Proof.Machine.execCpyr g s
  | .cpyp g => Sys2Proof.Machine.execCpyp g s
  | .oclaim g => Sys2Proof.Machine.execOclaim g s
  | .orel g u => Sys2Proof.Machine.execOrel g u s
  | .ohdr g => Sys2Proof.Machine.execOhdr g s
  | .ofill g v => Sys2Proof.Machine.execOfill g v s
  | .nsig g a => Sys2Proof.Machine.execNsig g a s
  | .nwake g a => Sys2Proof.Machine.execNwake g a s
  | .ndep g w n => Sys2Proof.Machine.execNdep g w n s
  | .nrd g w c => Sys2Proof.Machine.execNrd g w c s
  | .njoin g => Sys2Proof.Machine.execNjoin g s
  | .nwait g w => Sys2Proof.Machine.execNwait g w s
  | .nself g => Sys2Proof.Machine.execNself g s
  | .wwait g x => Sys2Proof.Machine.execWwait g x s
  | .wwake g => Sys2Proof.Machine.execWwake g s
  | .srec g v => Sys2Proof.Machine.execSrec g v s
  | .swm g => Sys2Proof.Machine.execSwm g s
  | .sidle g => Sys2Proof.Machine.execSidle g s
  | .swin g => Sys2Proof.Machine.execSwin g s
  | .swinL g v => Sys2Proof.Machine.execSwinL g v s
  | .spub g => Sys2Proof.Machine.execSpub g s
  | .samend g => Sys2Proof.Machine.execSamend g s
  | .sdone g => Sys2Proof.Machine.execSdone g s
  | .mpost g => Sys2Proof.Machine.execMpost g s
  | .msend g => Sys2Proof.Machine.execMsend g s
  | .mstat g p => Sys2Proof.Machine.execMstat g p s
  | .fsreq g w => Sys2Proof.Machine.execFsreq g w s
  | .trap x0 => Sys2Proof.Machine.execTrap x0 s
  | .brk x0 => Sys2Proof.Machine.execBrk x0 s
  | .drain a d => Sys2Proof.Machine.execDrain a d s
  | .wsnap a b p => Sys2Proof.Machine.execWsnap a b p s
  | .accspl p n => Sys2Proof.Machine.execAccspl p n s
  | .accfil p n => Sys2Proof.Machine.execAccfil p n s
  | .mapset a p => Sys2Proof.Machine.execMapset a p s
  | .tlbinv a c => Sys2Proof.Machine.execTlbinv a c s
  | .psrd d r => Sys2Proof.Machine.execPsrd d r s
  | .psrdD d r => Sys2Proof.Machine.execPsrdD d r s
  | .pswr r a => Sys2Proof.Machine.execPswr r a s
  | .pswrD r a => Sys2Proof.Machine.execPswrD r a s
  | .mmac t a b => Sys2Proof.Machine.execMmac t a b s
  | .mmact t a b => Sys2Proof.Machine.execMmact t a b s
  | .mzero t y => Sys2Proof.Machine.execMzero t y s
  | .mrel p a b => Sys2Proof.Machine.execMrel p a b s
  | .mbara n => Sys2Proof.Machine.execMbara n s
  | .mbarw n => Sys2Proof.Machine.execMbarw n s
  | .mset n x1 => Sys2Proof.Machine.execMset n x1 s
  | .msetMode x0 => Sys2Proof.Machine.execMsetMode x0 s
  | .mdec n => Sys2Proof.Machine.execMdec n s
  | .mbnz n d => Sys2Proof.Machine.execMbnz n d s
  | .mbstAb d => Sys2Proof.Machine.execMbstAb d s
  | .mbstNab d => Sys2Proof.Machine.execMbstNab d s
  | .mjmp d => Sys2Proof.Machine.execMjmp d s
  | .nop => Sys2Proof.Machine.execNop s
  | .ret => Sys2Proof.Machine.execRet s
  | .exit => Sys2Proof.Machine.execExit s
  | .region => Sys2Proof.Machine.execRegion s
  | .lhead => Sys2Proof.Machine.execLhead s
  | .reconv => Sys2Proof.Machine.execReconv s
  | .rte => Sys2Proof.Machine.execRte s
  | .hbcast => Sys2Proof.Machine.execHbcast s
  | .mnop => Sys2Proof.Machine.execMnop s
  | .mend => Sys2Proof.Machine.execMend s
  | .runArbitration core part => Sys2Proof.Machine.execRunArbitration core part s
  | .resultWriteback k => Sys2Proof.Machine.execResultWriteback k s
  | .loadDataArrival k id => Sys2Proof.Machine.execLoadDataArrival k id s
  | .mmacComplete core slot => Sys2Proof.Machine.execMmacComplete core slot s
  | .engineOpComplete id => Sys2Proof.Machine.execEngineOpComplete id s
  | .copyResume id => Sys2Proof.Machine.execCopyResume id s
  | .rackingSpill k => Sys2Proof.Machine.execRackingSpill k s
  | .rackingRefill k => Sys2Proof.Machine.execRackingRefill k s
  | .rackingTransferDone k => Sys2Proof.Machine.execRackingTransferDone k s
  | .sendResolve id => Sys2Proof.Machine.execSendResolve id s
  | .messageDelivery id => Sys2Proof.Machine.execMessageDelivery id s
  | .bouncePlacement id => Sys2Proof.Machine.execBouncePlacement id s
  | .lauterContribution id => Sys2Proof.Machine.execLauterContribution id s
  | .hostNsig c slot => Sys2Proof.Machine.execHostNsig c slot s
  | .hostNwake c slot => Sys2Proof.Machine.execHostNwake c slot s
  | .hostNdep c slot => Sys2Proof.Machine.execHostNdep c slot s
  | .hostTake c slot => Sys2Proof.Machine.execHostTake c slot s
  | .hostNrd c slot => Sys2Proof.Machine.execHostNrd c slot s
  | .hostWwait c slot => Sys2Proof.Machine.execHostWwait c slot s
  | .hostWwake c slot => Sys2Proof.Machine.execHostWwake c slot s
  | .hostMpost c slot => Sys2Proof.Machine.execHostMpost c slot s
  | .hostMstat c slot => Sys2Proof.Machine.execHostMstat c slot s
  | .hostPlace c slot => Sys2Proof.Machine.execHostPlace c slot s
  | .contextCreate c desc => Sys2Proof.Machine.execContextCreate c desc s
  | .launchQueueConfig q base log2n prio c => Sys2Proof.Machine.execLaunchQueueConfig q base log2n prio c s
  | .launchRecordTake q => Sys2Proof.Machine.execLaunchRecordTake q s
  | .launchDependenceMet q => Sys2Proof.Machine.execLaunchDependenceMet q s
  | .blockAdmit launch core => Sys2Proof.Machine.execBlockAdmit launch core s
  | .blockSwap launch core => Sys2Proof.Machine.execBlockSwap launch core s
  | .preemptRequest c cores free => Sys2Proof.Machine.execPreemptRequest c cores free s
  | .blockSave core slot => Sys2Proof.Machine.execBlockSave core slot s
  | .t1Expiry c => Sys2Proof.Machine.execT1Expiry c s
  | .t2Expiry c => Sys2Proof.Machine.execT2Expiry c s
  | .blockRestore launch rank core => Sys2Proof.Machine.execBlockRestore launch rank core s
  | .migrationBegin core slot dest => Sys2Proof.Machine.execMigrationBegin core slot dest s
  | .transitTimeout name => Sys2Proof.Machine.execTransitTimeout name s
  | .hostThreadRegister c name wake => Sys2Proof.Machine.execHostThreadRegister c name wake s
  | .hostThreadRetire name => Sys2Proof.Machine.execHostThreadRetire name s
  | .nameFlush => Sys2Proof.Machine.execNameFlush s
  | .handlerEntry core => Sys2Proof.Machine.execHandlerEntry core s
  | .drainWindowExpiry core => Sys2Proof.Machine.execDrainWindowExpiry core s
  | .faultQueueAppend => Sys2Proof.Machine.execFaultQueueAppend s
  | .faultResumeToken token => Sys2Proof.Machine.execFaultResumeToken token s
  | .mgmtRegisterWrite r idx v => Sys2Proof.Machine.execMgmtRegisterWrite r idx v s
  | .streamConfigure n desc => Sys2Proof.Machine.execStreamConfigure n desc s
  | .streamUnbind n => Sys2Proof.Machine.execStreamUnbind n s
  | .sourceIdleTimeout n src => Sys2Proof.Machine.execSourceIdleTimeout n src s
  | .activationStart n => Sys2Proof.Machine.execActivationStart n s
  | .checkpointStart desc => Sys2Proof.Machine.execCheckpointStart desc s
  | .checkpointFreeze => Sys2Proof.Machine.execCheckpointFreeze s
  | .frozenGranuleWrite ordinal => Sys2Proof.Machine.execFrozenGranuleWrite ordinal s
  | .checkpointGranuleSend ordinal => Sys2Proof.Machine.execCheckpointGranuleSend ordinal s
  | .checkpointPeerAck ordinal => Sys2Proof.Machine.execCheckpointPeerAck ordinal s
  | .linkFlitReplay link => Sys2Proof.Machine.execLinkFlitReplay link s
  | .linkDown link => Sys2Proof.Machine.execLinkDown link s
  | .inboundFlit key src op => Sys2Proof.Machine.execInboundFlit key src op s
  | .fenceRevoke module => Sys2Proof.Machine.execFenceRevoke module s
  | .sparePowerUp => Sys2Proof.Machine.execSparePowerUp s
  | .rehome die => Sys2Proof.Machine.execRehome die s
  | .dieOvertemp die => Sys2Proof.Machine.execDieOvertemp die s
  | .powerCapSet watts => Sys2Proof.Machine.execPowerCapSet watts s
  | .attestationRequest nonce => Sys2Proof.Machine.execAttestationRequest nonce s
  | .bringUp harvest spare => Sys2Proof.Machine.execBringUp harvest spare s
  | .contextReset c release => Sys2Proof.Machine.execContextReset c release s
  | .scrubbing u uncorrectable => Sys2Proof.Machine.execScrubbing u uncorrectable s
  | .clockLowering units => Sys2Proof.Machine.execClockLowering units s
  | .cxlMemHostAccess pa write => Sys2Proof.Machine.execCxlMemHostAccess pa write s

end Sys2Proof.Machine
end

