-- ==== Sys2Proof/Machine/Chain.lean ====
section
/-!
DEFINITION. How a chain issues (R46, R47, R56 to R58, R193, R210, R328), the words of the sequencer (R59, R60), and the
moves of the machine: what may happen next, and its effect.
-/
namespace Sys2Proof.Machine

/-! ## The words of a chain (R46) -/

/-- A word of the chain with the prefix before it, or alone. -/
def chainUnits : List (Nat × Word) → List (List (Nat × Word))
  | [] => []
  | [x] => [[x]]
  | x :: y :: r => if (pfxOf x.2).isSome then [x, y] :: chainUnits r else [x] :: chainUnits (y :: r)

/-- One word runs at its slot. -/
def runWord (s : State) (x : Nat × Word) : State :=
  if s.issue.ended.isSome then s
  else
    let s := { s with issue := { s.issue with slot := x.1, word := x.2 } }
    match decodeWord x.2 with
    | .error c => takeTrap (.illegal c x.1) s
    | .ok i => match exec i s with
      | .next t => t
      | _ => s

def runUnit (s : State) (u : List (Nat × Word)) : State := u.foldl runWord s

def runUnits (s : State) (us : List (List (Nat × Word))) : State := us.foldl runUnit s

/-- `sig` takes the words (R328). -/
def State.foldWords (s : State) (ws : List Word) : State :=
  s.setSplit { s.split with sig := ws.foldl foldSig s.split.sig, folded := ws.reverse ++ s.split.folded }

/-- The barrier word's predicate gives way to one that a word in a higher slot writes (R46). -/
def keepHigher (s t : State) (higher : List Word) : State :=
  if (t.warp.pend.any fun p => p.id ≥ s.nextId && (s.warp.chainUse none higher).writes.contains p.dest) then
    { t with warp := { t.warp with pend := s.warp.pend } }
  else t

/-- The chain waits with a word of it, which keeps what it has begun; the rest of the chain has no effect. A trap has none at all, but for
cause 10 and the traps that come after their packet (R58, R193, R356); a fault of the firmware handler never has any (R199). -/
def settleChain (s0 t : State) (us : List (List (Nat × Word))) : State :=
  match t.issue.ended with
  | some (.waiting _) =>
    match us.find? fun u => u.any fun x => x.1 = t.issue.slot with
    | some u => runUnit s0 u
    | none => t
  | some (.trapped (.user _)) => t
  | some (.trapped (.brk _)) => t
  | some (.trapped (.illegal 10 n)) =>
    if s0.warp.level = .firmware then takeTrap (.illegal 10 n) { s0 with issue := { t.issue with ended := none } } else t
  | some (.trapped e) => takeTrap e { s0 with issue := { t.issue with ended := none } }
  | _ => t

/-- A word that writes a special register at once: it runs after the words of its chain that may read one (R46, R203). -/
def writesSpecial (w : Word) : Bool :=
  match decodeWord w with
  | .ok (.swr ..) => true
  | .ok (.swrD ..) => true
  | .ok (.pswr ..) => true
  | .ok (.pswrD ..) => true
  | _ => false

/-- An arrival has been made or waits: what its chain has done stands while it waits (R140). -/
def arrives (w : Word) : Bool :=
  match decodeWord w with
  | .ok (.await ..) => false
  | .ok (.cbawait ..) => false
  | _ => true

/-- The executing split has come so far with its chain. -/
def State.begin (s : State) (n : Nat) : State := s.setSplit { s.split with begun := n }

/-- The first words of a chain: those that only compute and access. -/
def runPlain (s0 : State) (us : List (List (Nat × Word))) : State :=
  let plain := us.filter fun u => !u.any fun x => isControl x.2 || isBarrier x.2
  let last (u : List (Nat × Word)) : Bool := u.any fun x => writesSpecial x.2
  if s0.split.begun = 0 then runUnits s0 ((plain.filter fun u => !last u) ++ plain.filter last) else s0

/-- The barrier word of a chain, on the state after the plain ones. -/
def runBarrier (s0 a : State) (ws : List (Nat × Word)) (barrier : List (List (Nat × Word))) : State :=
  let high := ws.filter fun x => barrier.any fun u => u.any fun y => y.1 < x.1
  if s0.split.begun < 2 then keepHigher a (runUnits a barrier) (high.map (·.2)) else a

/-- The control word of a chain, on the state after the others: it sees `sig` with the words before it folded (R138, R328). -/
def runControl (b : State) (ws : List (Nat × Word)) (control : List (List (Nat × Word))) : State :=
  let b := b.begin 0
  match control with
  | [(n, w)] :: _ =>
    let low := ws.filter fun x => x.1 < n
    let up := ws.filter fun x => n < x.1
    if majorOf w = 0x0D && fld w 16 6 = 1 then
      let c := runUnits (b.foldWords (low.map (·.2))) control
      if c.issue.ended.isSome then c else c.foldWords (up.map (·.2))
    else runUnits (b.foldWords (ws.map (·.2))) control
  | _ => b.foldWords (ws.map (·.2))

/-- The words of a chain on the state before it: the plain ones, then a barrier word, then the control word. A chain whose barrier word
has arrived and waits goes on there (R140); so does one whose control word waits for the chain's own words, or after its arrival (R46). -/
def runChain (s0 : State) (ws : List (Nat × Word)) : State :=
  let us := chainUnits ws
  let kind (f : Word → Bool) : List (List (Nat × Word)) := us.filter fun u => u.any fun x => f x.2
  let control := kind isControl
  let barrier := kind isBarrier
  let a := runPlain s0 us
  if a.issue.ended.isSome then settleChain s0 a us
  else
    let b := runBarrier s0 a ws barrier
    match b.issue.ended with
    | some (.waiting _) => if ws.any fun x => isBarrier x.2 && arrives x.2 then b.begin 1 else settleChain s0 b us
    | some _ => settleChain s0 b us
    | none =>
      let c := runControl b ws control
      match c.issue.ended with
      | some (.waiting w) =>
        let d := settleChain s0 c us
        let alone := match d.issue.ended with | some (.waiting _) => true | _ => false
        if s0.split.begun = 0 && alone then d else parkOn w { (b.begin 2) with issue := { b.issue with slot := c.issue.slot } }
      | some _ => settleChain s0 c us
      | none => c

/-! ## The issue of a chain -/

/-- The largest stall count (R47). -/
def maxStall (ws : List (Nat × Word)) : Nat := ws.foldl (fun a x => Nat.max a (headerOf x.2).stall.toNat) 0

/-- The port of a partition of a core is free from the next cycle on (R210). -/
def State.freePort (s : State) (core part : Nat) : State :=
  let c := s.getCore core
  s.setCore { c with ports := c.ports.setIfInBounds part none, portAt := c.portAt.setIfInBounds part (s.clock + 1) }

/-- A deferred `trap` or `brk` is taken at the end of its packet, by the split that has it then (R193). -/
def State.endPacket (s : State) : State :=
  let due (i : Nat) : Option Trap := let p := s.warp.splitAt i; if p.st = .live ∧ p.slot = 0 then p.ptrap else none
  match (List.range 4).findSome? fun i => (due i).map fun t => (i, t) with
  | some (i, t) => takeTrap t { s with issue := { s.issue with sp := i } }
  | none => s

/-- A copy's fault is no longer met by a read of its result once a chain has written that register again (R199). -/
def Warp.rewritten (w : Warp) (ws : List Word) : Warp :=
  let u := w.chainUse .none ws
  { w with copyFault := w.copyFault.map fun (f : CopyFault) => if f.reg.any fun r => u.writes.contains (.u r) then { f with reg := .none } else f }

/-- The split after a chain that completed: its next issue, its place, and the end of its packet and run (R47, R56, R57). A `trap` whose
split exits later in its packet is lost with it (assumption 110). -/
def State.afterChain (s : State) (ws : List (Nat × Word)) (last : Word) : State :=
  let done : Bool := match s.issue.ended with | some (.waiting _) => false | some (.trapped _) => false | _ => true
  let s : State := if done && !s.warp.copyFault.isEmpty then { s with warp := s.warp.rewritten (ws.map (·.2)) } else s
  match s.issue.ended with
  | some .gone => s.endPacket
  | some .taken =>
    let p := s.split
    (s.setSplit { p with nextIssue := s.clock + 1 + maxStall ws, wait := none, begun := 0, stamp := s.clock, spent := p.spent || ws.any fun x => notIdempotent x.2 }).endPacket
  | some _ => s
  | none =>
    let p := s.split
    let p := { p with nextIssue := s.clock + 1 + maxStall ws, wait := none, begun := 0, spent := p.spent || ws.any fun x => notIdempotent x.2 }
    if s.issue.next < 3 then s.setSplit { p with slot := s.issue.next }
    else
      let run : Nat := p.runLen + 1
      let stop := (headerOf last).cb || decide (run ≥ 8)
      let s := s.setSplit { p with slot := 0, pc := s.issue.pkt + 12, runLen := if stop then 0 else run, stamp := if stop then s.clock else p.stamp }
      let s := s.endPacket
      if stop && s.issue.ended.isNone then { s with issue := { s.issue with ended := some .taken } } else s

/-- The next chain of a split of the loaded warp; how it ended stands in `issue.ended` (`none`: its run goes on). -/
def issueChain (s : State) (sp : Nat) : State :=
  let w := s.warp.settle s.clock
  let p := w.splitAt sp
  let s := { s with warp := { w with lastSplit := sp }, issue := { Issue.none with pkt := p.pc, sp := sp, slot := p.slot } }
  match fetchPacket s s.warp.level p.pc with
  | .error (.trap t) => takeTrap t s
  | .error (.wait k) => parkOn k s
  | .ok k =>
    match (if p.slot = 0 && p.begun = 0 then k.cause s.warp.level else none) with
    | some (slot, c) => takeTrap (.illegal c slot) { s with issue := { s.issue with slot := slot } }
    | none =>
      let ws := k.chain p.slot
      let s := { s with issue := { s.issue with next := k.chainEnd p.slot, chain := ws } }
      let left := (p.leftOf ws).map (·.2)
      match s.chainHold s.ctx.checking s.warp sp false left with
      | .trap t => takeTrap t s
      | _ =>
        if s.feBlocked s.warp sp left || s.takeHeld s.warp sp left || s.stallHeld s.warp left then parkOn .retry s
        else if p.pendCall.isSome then
          (runUnits s ((chainUnits ws).filter fun u => u.any fun x => isControl x.2)).afterChain ws k.w2
        else
          let s := if p.slot = 0 && p.begun = 0 then s.setSplit { p with presig := p.sig, folded := [] } else s
          (runChain s ws).afterChain ws k.w2

/-- The split that holds a port issues its next chain; the port is free once its run has ended. While a `hbcast` waits for reports a run
in progress goes on to its boundary, engine commands included (R196, assumption 109). -/
def State.issueAt (s : State) (core part : Nat) (k : WKey) (sp : Nat) : State :=
  match s.getWarp k with
  | none => s.freePort core part
  | some w =>
    s.asAgent k (s.ctxOfWarp w) fun s =>
      let t := issueChain s sp
      if t.issue.ended.isSome then t.freePort core part else t

/-- The next queue entry of a restored warp is issued again; what its load raises is taken by a split that would run (R15, R291). -/
def State.reissueAt (s : State) (k : WKey) : State :=
  match s.getWarp k with
  | none => s
  | some w =>
    s.asAgent k (s.ctxOfWarp w) fun s =>
      let sp := ((List.range 4).find? fun i => (s.warp.splitAt i).st = .live).getD 0
      match s.warp.reissueNext s 4 with
      | .ok w => { s with warp := w }
      | .error (.trap t) => takeTrap t { s with issue := { Issue.none with pkt := (s.warp.splitAt sp).pc, sp := sp } }
      | .error (.wait _) => s

/-- A restored warp can issue a queue entry again. -/
def State.canReissue (s : State) (w : Warp) : Bool :=
  w.reissuing && s.mayRun w && !s.fu.recs.any fun r => match r.who with | some (.split k _) => k = w.key | _ => false

/-- The chain of a split that waits would complete now. -/
def State.wouldRun (s : State) (w : Warp) (sp : Nat) : Bool :=
  let t := issueChain (s.load w.key w.key.core w.key.slot (s.ctxOfWarp w)) sp
  match t.issue.ended with
  | some (.waiting _) => false
  | _ => true

/-! ## The sequencer (R59, R60) -/

/-- A matrix word by its opcode: the meaning of the instruction that `decodeMatrix` gives, or the illegal-instruction trap
of the sequencer. -/
def seqWord (w : Word) (s : State) : Host.Outcome State Fault Refusal :=
  let bad (c : Nat) : Host.Outcome State Fault Refusal := .next (seqTrap (.illegal c 0) s)
  let zero (ok : Prop) [Decidable ok] (k : Host.Outcome State Fault Refusal) : Host.Outcome State Fault Refusal := if ok then k else bad 4
  match (fld w 26 6).toNat with
  | 0 => zero (fld w 0 26 = 0#26) (execMnop s)
  | 1 => execMmac (fld w 16 10) (fld w 8 8) (fld w 0 8) s
  | 2 => execMmact (fld w 16 10) (fld w 8 8) (fld w 0 8) s
  | 3 => zero (fld w 0 15 = 0#15) (execMzero (fld w 16 10) (fld w 15 1) s)
  | 4 => zero (fld w 17 9 = 0#9 ∧ (fld w 16 1 = 1#1 ∨ fld w 0 8 = 0#8)) (execMrel (fld w 16 1) (fld w 8 8) (fld w 0 8) s)
  | 5 => zero (fld w 4 22 = 0#22) (execMbara (fld w 0 4) s)
  | 6 => zero (fld w 4 22 = 0#22) (execMbarw (fld w 0 4) s)
  | 7 => if fld w 22 1 = 1#1 then zero (fld w 23 3 = 0#3 ∧ fld w 1 21 = 0#21) (execMsetMode (fld w 0 1) s)
    else zero (fld w 16 6 = 0#6) (execMset (fld w 23 3) (fld w 0 16) s)
  | 8 => zero (fld w 0 23 = 0#23) (execMdec (fld w 23 3) s)
  | 9 => execMbnz (fld w 23 3) (fld w 0 23) s
  | 10 => match (fld w 23 3).toNat with
    | 0 => execMbstAb (fld w 0 23) s
    | 1 => execMbstNab (fld w 0 23) s
    | _ => bad 1
  | 11 => zero (fld w 23 3 = 0#3) (execMjmp (fld w 0 23) s)
  | 12 => zero (fld w 0 26 = 0#26) (execMend s)
  | _ => bad 1

/-- The sequencer of the loaded block takes its next word. A page that is not present is served by the driver, and the
word is fetched again. -/
def seqIssue (s : State) : State :=
  match fetchWord s .user s.blk.seq.pc with
  | .error (.trap (.miss va a acc)) =>
    (s.raiseFault s.ctx.id s.core.id 0xFF a 0 acc va (some (.seq ⟨s.blk.core, s.blk.slot, 0⟩))).endIssue (.waiting .retry)
  | .error (.trap t) => seqTrap t s
  | .error (.wait k) => s.endIssue (.waiting k)
  | .ok w => match seqWord w s with
    | .next t => t
    | _ => s

def State.seqAt (s : State) (b : Block) : State := s.asAgent ⟨b.core, b.slot, 0⟩ b.ctx seqIssue

/-- The sequencer of a block can take its next word now. -/
def State.seqReady (s : State) (b : Block) : Bool :=
  let k : WKey := ⟨b.core, b.slot, 0⟩
  b.life = .resident && b.seq.present && !b.seq.ended && !b.seq.stopped && !b.draining && (b.seq.flights.all fun f => decide (s.clock < f.due)) && decide (b.seq.nextAt ≤ s.clock) &&
    !s.dieDown b.core && (s.getCtx b.ctx).any (fun c => !c.halted) && !(s.fu.recs.any fun r => r.who = some (.seq k)) &&
    match (seqIssue (s.load k b.core b.slot b.ctx)).issue.ended with
    | some (.waiting _) => (fetchWord (s.load k b.core b.slot b.ctx) .user b.seq.pc).toOption.isNone
    | _ => true

/-! ## Moves -/

/-- What may happen next. -/
inductive Move where
  /-- The split that holds a port issues its next chain. -/
  | chain (core part : Nat) (k : WKey) (sp : Nat)
  | arb (core part : Nat)
  /-- The wait of a split that waited for room, a counter or a slot is over. -/
  | wake (k : WKey) (sp : Nat)
  | seq (core slot : Nat)
  /-- The next event from outside the machine. -/
  | input
  | arrival (k : WKey) (id : Nat)
  /-- A queue entry of a restored warp is issued again. -/
  | reissue (k : WKey)
  | mmac (core slot : Nat)
  | op (id : Nat)
  | resume (id : Nat)
  | fold (id : Nat)
  | spill (k : WKey)
  | refill (k : WKey)
  | racked (k : WKey)
  | send (id : Nat)
  | message (id : Nat)
  | bounce (id : Nat)
  | host (op c slot : Nat)
  | take (q : Nat)
  | dependence (q : Nat)
  | placeBlock (launch core : Nat)
  | swap (launch core : Nat)
  | save (core slot : Nat)
  | t1 (c : Nat)
  | t2 (c : Nat)
  | restore (launch rank core : Nat)
  | transit (name : DWord)
  | handler (core : Nat)
  | drained (core : Nat)
  | report
  | idle (n src : Nat)
  | activate (n : Nat)
  | freeze
  | granule (ordinal : Nat)
  /-- A cycle passes. -/
  | tick
  deriving DecidableEq, Repr

/-- Translations of live contexts are taken up by the TLBs and walkers (R202, assumption 25). -/
def State.cachePages (s : State) : State :=
  if s.allCtxs.all fun c => !c.live then s
  else (Config.cachedPages s.tick).foldl (fun s x => match s.getCtx x.1 with
    | some c => if c.live then s.cachePage c.root (x.2 % 2 ^ 57) else s
    | none => s) s

/-- A block that the launch unit saved has become ready by this cycle (R271). -/
def State.noteReady (s : State) (v : Saved) : Saved :=
  if v.swapped && v.readyAt.isNone && s.savedReady v then { v with readyAt := some s.clock } else v

/-- The context that owns a core's store in this cycle (R293). -/
def State.noteOwner (s : State) (c : Core) : Core :=
  match if c.accown.getLsbD 2 then s.blockAt c.id (c.accown.toNat % 4) else none with
  | some b => { c with owned := (b.ctx, s.clock) :: c.owned.filter fun x => x.1 != b.ctx }
  | none => c

/-- A cycle passes, and the results due are written (R48, R6). -/
def State.cycle (s : State) : State :=
  let s := s.cachePages
  { s with
    clock := s.clock + 1, time19 := s.time19 + s.unitsPerCycle, wall := s.wall + s.unitsPerCycle, tick := s.tick + 1
    saved := s.saved.map s.noteReady, core := s.noteOwner s.core, cores := s.cores.map s.noteOwner
    warp := (s.noteUnready s.warp).settle (s.clock + 1), warps := s.warps.map fun w => (s.noteUnready w).settle (s.clock + 1) }

/-- A write from outside that a frozen granule holds back (R347). -/
def State.inputBlocked (s : State) (i : Instr) : Bool :=
  match i with
  | .cxlMemHostAccess pa (some bs) => s.hostBlocked pa bs.length
  | .inboundFlit key src op => s.inboundBlocked key src op
  | .streamConfigure n desc => s.streamOk n desc && (s.configured (s.readStream n desc.toNat)).isNone
  | _ => false

/-- An access to memory from outside: these keep their order. -/
def outsideAccess (i : Instr) : Bool :=
  match i with
  | .cxlMemHostAccess .. => true
  | .inboundFlit .. => true
  | .streamConfigure .. => true
  | _ => false

/-- The next event from outside is taken: the oldest one, or, while that is a write that waits for the reserve of a checkpoint, the
oldest that is no access to memory. An instruction that is no event is not taken. -/
def takeInput (s : State) : Host.Outcome State Fault Refusal :=
  let next (i : Instr) (r : List Instr) : Host.Outcome State Fault Refusal :=
    let s' := { s with inputs := r }
    if i.stream = .none then exec i s' else .next s'
  match s.inputs with
  | [] => .next s
  | i :: r =>
    if !s.inputBlocked i then next i r
    else match r.find? fun j => !outsideAccess j with
      | some j => next j (i :: r.eraseP fun j => !outsideAccess j)
      | none => .next s

/-- The event of a host command's op. -/
def execHost (op c slot : Nat) (s : State) : Host.Outcome State Fault Refusal :=
  match op with
  | 2 => execHostNwake c slot s
  | 3 => execHostNdep c slot s
  | 4 => execHostTake c slot s
  | 5 => execHostNrd c slot s
  | 6 => execHostWwait c slot s
  | 7 => execHostWwake c slot s
  | 8 => execHostMpost c slot s
  | 9 => execHostMstat c slot s
  | 10 => execHostPlace c slot s
  | _ => execHostNsig c slot s

/-- The effect of a move. -/
def perform (m : Move) (s : State) : Host.Outcome State Fault Refusal :=
  match m with
  | .chain core part k sp => .next (s.issueAt core part k sp)
  | .arb core part => execRunArbitration core part s
  | .wake k sp => .next (s.onWarp k fun w => w.setSplit sp { w.splitAt sp with wait := none })
  | .seq core slot => .next (match s.getBlk core slot with | some b => s.seqAt b | none => s)
  | .input => takeInput s
  | .arrival k id => execLoadDataArrival k id s
  | .reissue k => .next (s.reissueAt k)
  | .mmac core slot => execMmacComplete core slot s
  | .op id => execEngineOpComplete id s
  | .resume id => execCopyResume id s
  | .fold id => execLauterContribution id s
  | .spill k => execRackingSpill k s
  | .refill k => execRackingRefill k s
  | .racked k => execRackingTransferDone k s
  | .send id => execSendResolve id s
  | .message id => execMessageDelivery id s
  | .bounce id => execBouncePlacement id s
  | .host op c slot => execHost op c slot s
  | .take q => execLaunchRecordTake q s
  | .dependence q => execLaunchDependenceMet q s
  | .placeBlock launch core => execBlockAdmit launch core s
  | .swap launch core => execBlockSwap launch core s
  | .save core slot => execBlockSave core slot s
  | .t1 c => execT1Expiry c s
  | .t2 c => execT2Expiry c s
  | .restore launch rank core => execBlockRestore launch rank core s
  | .transit name => execTransitTimeout name s
  | .handler core => execHandlerEntry core s
  | .drained core => execDrainWindowExpiry core s
  | .report => execFaultQueueAppend s
  | .idle n src => execSourceIdleTimeout n src s
  | .activate n => execActivationStart n s
  | .freeze => execCheckpointFreeze s
  | .granule o => execCheckpointGranuleSend o s
  | .tick => .next s.cycle

/-! ### What is possible -/

/-- The cores on which a warp stands or a port is held. -/
def State.busyCores (s : State) : List Nat :=
  ((s.allCores.map (·.id)) ++ (s.allWarps.map (·.key.core))).eraseDups

/-- Chains that the holders of ports can issue, and free ports that a ready split can win. -/
def State.portMoves (s : State) : List Move :=
  s.busyCores.flatMap fun c => [0, 1, 2, 3].flatMap fun part =>
    match (s.getCore c).ports[part]?.getD none with
    | some (k, sp) =>
      match s.getWarp k with
      | some w => if (w.splitAt sp).nextIssue ≤ s.clock ∧ (s.holdOf w sp ≠ .wait ∨ s.portWaits w sp) then [.chain c part k sp] else []
      | none => [.chain c part k sp]
    | none => if (s.getCore c).portAt[part]?.getD 0 ≤ s.clock ∧ !(s.candidates c part).isEmpty then [.arb c part] else []

/-- Waits that are over. -/
def State.wakeMoves (s : State) : List Move :=
  s.allWarps.flatMap fun w =>
    ((List.range 4).filter fun sp => (w.splitAt sp).st = .live && (w.splitAt sp).wait = some .retry && decide ((w.splitAt sp).nextIssue ≤ s.clock) &&
      s.mayRun w && s.wouldRun w sp).map fun sp => .wake w.key sp

def State.seqMoves (s : State) : List Move := (s.allBlks.filter s.seqReady).map fun b => .seq b.core b.slot

/-- The results that arrive: VAR results whose value is known, queue entries, and full-empty loads. -/
def State.arrivalMoves (s : State) : List Move :=
  s.allWarps.flatMap fun w =>
    let ids := ((w.pend.filter fun p => p.due.isNone && !s.unknown p.id).map (·.id)).eraseDups ++
      w.dq.toList.flatMap fun q => (q.filter fun e => !e.arrived && !e.reissue && !s.unknown e.id).map (·.id)
    let fe := (s.ops.filter fun o => o.key = w.key && !o.done).filterMap fun o => match o.kind with
      | .feload _ _ pid cells _ => if cells.all fun c => s.isFull (c.2.1, c.2.2.1, c.2.2.2 / 16) then some pid else none
      | _ => none
    (if s.canReissue w then [.reissue w.key] else []) ++ (ids ++ fe).map fun id => .arrival w.key id

def State.engineMoves (s : State) : List Move :=
  (s.ops.flatMap fun o =>
    if s.opReady o then [.op o.id]
    else match o.kind with
      | .fold .. => if o.done then [] else [.fold o.id]
      | _ => match o.token with
        | some t => if s.fu.recs.any fun r => r.token = t then [] else [.resume o.id]
        | none => []) ++
  s.allWarps.flatMap fun w =>
    (if w.exited then []
      else (if w.spillNext.isSome then [.spill w.key] else []) ++ (if w.refillNext.isSome && w.spillNext.isNone then [.refill w.key] else []) ++
        (match w.rack with | some r => if s.rackFreeToGo r && !w.frameBusy r then [.racked w.key] else [] | none => []))

def State.hubMoves (s : State) : List Move :=
  ((s.sends.filter fun x => !s.remote x.name || s.routed x.name).map fun x => if x.op.isMsg then .message x.id else .send x.id) ++
  (s.sops.map fun x => .send x.1) ++
  ((s.bounces.filter fun b => !s.fu.recs.any fun r => r.who = some (.bounce b.id)).map fun b => .bounce b.id) ++
  match s.hostq with
    | [] => []
    | h :: _ => ((s.hostCmd h.ctx h.slot).map fun x => .host x.op h.ctx h.slot).toList

def State.launchMoves (s : State) : List Move :=
  (s.queues.flatMap fun q => match q.headLaunch with
    | some _ => [.dependence q.id]
    | none => if q.tail != q.head then [.take q.id] else []) ++
  (s.launches.flatMap fun l =>
    (if l.offers then (match s.firstCore l with | some c => if s.mayAdmit l c then [.placeBlock l.id c] else [] | none => []) else []) ++
      (if s.swapRule l then (match s.swapVictim l with | some b => [.swap l.id b.core] | none => []) else [])) ++
  (s.saved.filter fun v => v.swapped && s.turnOf v).flatMap fun v => ((s.restoreCore v).map fun c => .restore v.blk.launch v.blk.rank c).toList

def State.preemptMoves (s : State) : List Move :=
  ((s.allBlks.filter fun b => b.draining && s.saveReady b (((s.getCtx b.ctx).map fun c => decide (c.pre = .forced)).getD false)).map fun b => .save b.core b.slot) ++
  ((s.allCtxs.filter fun c => c.pre = .draining && decide (s.wall ≥ c.preSince + c.t1 * usUnits)).map fun c => .t1 c.id) ++
  ((s.allCtxs.filter fun c => c.requested && decide (s.wall ≥ c.preSince + c.t2 * usUnits)).map fun c => .t2 c.id) ++
  (s.names.filter fun e => e.st = 4 && decide (s.wall ≥ e.transitAt + 2 * usUnits)).map fun e => .transit e.name

def State.deviceMoves (s : State) : List Move :=
  ((s.allCores.filter fun c => c.handling.isNone && c.records.any s.mayServe).map fun c => .handler c.id) ++
  ((s.allCores.filter fun c => c.drainUntil.any fun t => decide (s.wall ≥ t) && c.handling.any fun v =>
    !(s.drainPending c.id v.ctx c.drainFrom).isEmpty).map fun c => .drained c.id) ++
  (if s.fu.room && s.fu.recs.any (fun r => !r.written) then [.report] else []) ++
  (s.streams.flatMap fun x =>
    (if x.launch.isSome && x.running.isNone && !x.queue.isEmpty then [.activate x.n] else [])) ++
  (match s.ck with
    | some c =>
      (if c.phase = 1 && !s.allBlks.any (fun b => c.ctxs.contains b.ctx && b.draining) then [.freeze] else []) ++
        (if c.phase = 2 then (match c.grans.find? fun g => decide (g.st < 2) with | some g => [.granule g.ordinal] | none => []) else [])
    | none => [])

/-- What this cycle is the moment of: the tile write of an mmac in its last cycle (R166), and a source's timeout (R303). -/
def State.dueMoves (s : State) : List Move :=
  ((s.allBlks.filter fun b => b.seq.flights.head?.any fun f => decide (f.due ≤ s.clock)).map fun b => .mmac b.core b.slot) ++
  s.streams.flatMap fun x => (x.sources.filter fun q => q.expired s.time19).map fun q => .idle x.n q.n

/-- What runs in this cycle. -/
def State.runs (s : State) : List Move := s.portMoves ++ s.wakeMoves ++ s.seqMoves ++ s.dueMoves

/-- What the rest of the device, or the outside, may do at any time. -/
def State.events (s : State) : List Move :=
  (if s.inputs.isEmpty then [] else [.input]) ++ s.arrivalMoves ++ s.engineMoves ++ s.hubMoves ++ s.launchMoves ++ s.preemptMoves ++ s.deviceMoves

/-- The moves possible now: a cycle passes only when nothing more runs in it. -/
def State.moves (s : State) : List Move :=
  match s.runs with
  | [] => s.events ++ [.tick]
  | l => l ++ s.events

/-- One move is made; which one of several is open (assumption 4). -/
def stepMove (s : State) : Host.Outcome State Fault Refusal :=
  match s.moves with
  | [m] => perform m s
  | l => perform (l[Config.schedule s.tick % l.length]?.getD .tick) { s with tick := s.tick + 1 }

/-! ## Placing an instruction (assumption 3) -/

/-- The word's packet stands at 0x3000, and the other slots hold `nop`. -/
def placedAt : Nat := 0x3000

def placedPacket (w : Word) : List Byte := leBytes 4 w.toNat ++ leBytes 8 0

/-- The word is privileged: majors 0x39 and 0x3A. -/
def privilegedWord (w : Word) : Bool := majorOf w = 0x39 || majorOf w = 0x3A

/-- Two table entries map the first GiB to itself: the root at 0x1000 names a table at 0x2000, whose first entry is a leaf. -/
def placedMem (m : List Host.Cell) (w : Word) : List Host.Cell :=
  cellsWrite (cellsWrite (cellsWrite m 0x1000 (leBytes 8 0x2001)) 0x2000 (leBytes 8 0xAF)) placedAt (placedPacket w)

/-- A privileged word is run by the handler warp, any other by a user warp (R58, R335). -/
def placedKey (w : Word) : WKey := if privilegedWord w then handlerKey 0 else ⟨0, 0, 0⟩

/-- A warp at a packet. -/
def placedWarp (w : Word) : Warp :=
  { Warp.none with
    key := placedKey w, level := if privilegedWord w then .firmware else .user, exited := false
    splits := (Vector.replicate 4 Split.none).setIfInBounds 0
      { Split.none with st := .live, pc := BitVec.ofNat 64 placedAt, mask := allLanes, region := BitVec.ofNat 64 placedAt } }

/-- A machine whose next step issues a word: a context, a block with one warp on core 0, and the issue port held. A privileged word stands in
firmware memory (R351). -/
def State.placing (s : State) (w : Word) : State :=
  { s with
    inputs := [], active := false, queues := [], launches := [], saved := [], sends := [], bounces := [], ops := [], sops := []
    streams := [], names := [], fu := FaultUnit.none, ck := none, tlb := []
    fwmem := if privilegedWord w then cellsWrite s.fwmem placedAt (placedPacket w) else s.fwmem
    mem := placedMem s.mem w, lineKey := s.lineKey.filter fun p => p.1 != 0x40 && p.1 != 0x80 && p.1 != placedAt / 64
    ctxs := [{ Ctx.none with live := true, root := 0x1000, keyid := 0 }]
    cores := [{ Core.none with ports := Core.none.ports.setIfInBounds 0 (some (placedKey w, 0)) }]
    blks := [{ Block.none with nw := 1, life := .resident }]
    warps := [placedWarp w] }

end Sys2Proof.Machine
end

