-- ==== Sys2Proof/Machine/Step.lean ====
section
/-!
DEFINITION. One step of the machine, and how an instruction is placed where the next step issues it.
-/
namespace Sys2Proof.Machine

/-- One move: the chain of an issue port, the winner of a port, a word of a sequencer, an event, or a cycle. -/
def step (s : State) : Host.Outcome State Fault Refusal := stepMove s

/-- A warp on core 0 that holds its port stands at a packet with the word in slot 0 and `nop` in the others (assumption
3). Every instruction of this hardware is one word of 32 bits. -/
def State.withFetchWord (s : State) (_nbits w : Nat) : State := s.placing (BitVec.ofNat 32 w)

end Sys2Proof.Machine
end

