-- ==== Sys2Proof/WellFormed.lean ====
section
/-!
DEFINITION. Well-formed instructions: the checks of R58 and R60 that an instruction passes by itself, whatever stands beside
it in its packet: minor codes, special-register numbers, slides and command groups, register fields, the codes of a prefix,
and jump distances of the matrix stream. An event has no encoding, and no check.
-/
namespace Sys2Proof

/-- A prefix's rounding mode and declared use are assigned codes (R27, R55); an `mrel` of one slot names no second one (R167). -/
def Instr.codesOk : Instr → Bool
  | .mrel p _ b => p = 1 || b = 0
  | .pfx _ _ r _ u _ => decide (r.toNat < 6) && decide (u.toNat < 5)
  | _ => true

/-- A displacement of the matrix stream is a multiple of 4 (R60, R167). -/
def Instr.distanceOk : Instr → Bool
  | .mbnz _ d => decide (d.toNat % 4 = 0)
  | .mbstAb d => decide (d.toNat % 4 = 0)
  | .mbstNab d => decide (d.toNat % 4 = 0)
  | .mjmp d => decide (d.toNat % 4 = 0)
  | _ => true

/-- No check of R58 or R60 on the instruction alone fails; the prefix it may stand under names no data queue. -/
def Instr.wf (i : Instr) : Bool :=
  (Machine.wordCause (some ⟨0, 0, 0, 0, 0, 0⟩) i).isNone && i.codesOk && i.distanceOk

end Sys2Proof
end

