-- ==== Sys2Proof/Safety.lean ====
section
/-!
DEFINITION. The terms in which claims are made: the register writes of a word that completes, what it leaves as it was,
and what counts as a safe run.
-/
namespace Sys2Proof.Machine

/-! ## Results of words that write registers -/

/-- One register write: the register, the lanes written, and the value. -/
structure Write where
  dest : Dest
  lanes : Word
  val : VReg
  deriving DecidableEq, Repr

/-- Writes made one after the other. -/
def Warp.writes (w : Warp) (l : List Write) : Warp := l.foldl (fun w x => w.writeDest x.dest x.lanes x.val) w

/-- `t` is `s` with the writes `l` put in flight and the prefix latch spent: they land after `lat` cycles (`none`: when
they arrive, R48). `rest` is the frame: nothing but the results in flight, their numbering and the latch may differ.
`regs`: once every result in flight has been written, the warp is what it would have been without the word, with the
writes `l` made on it; so no older result lands over them, and no other register differs. -/
structure Lands (s t : State) (lat : Option Nat) (l : List Write) : Prop where
  rest : t = { s with
    nextId := t.nextId, issue := { s.issue with pfx := none }, warp := { s.warp with pend := t.warp.pend } }
  regs : t.warp.settleAll = s.warp.settleAll.writes l
  due : ∀ x ∈ l, ∃ p ∈ t.warp.pend, p.dest = x.dest ∧ p.due = lat.map (s.clock + ·)

/-- `exec` answers a next state in which the writes `l` are in flight over `s'`, the state after the word's queue reads. -/
def Gives (i : Instr) (s s' : State) (lat : Option Nat) (l : List Write) : Prop :=
  ∃ t, Sys2Proof.Machine.exec i s = .next t ∧ Lands s' t lat l

/-- Uniform destinations (R13). -/
def uW (n : Nat) (v : Word) : Write := ⟨.u n, allLanes, splat v⟩
def uPair (n : Nat) (v : DWord) : List Write := [uW n (v.setWidth 32), uW (n + 1) ((v >>> 32).setWidth 32)]
def pW (n : Nat) (b : Bool) : Write := ⟨.p n, allLanes, splat (if b then 1 else 0)⟩
def mW (n : Nat) (v : Word) : Write := ⟨.m n, allLanes, splat v⟩

/-- R71: a vector destination under the effective mask and Z. -/
def State.vW (s : State) (n : Nat) (v : VReg) : Write :=
  if s.pfx.z = 1 then ⟨s.warp.vdest n, allLanes, Vector.ofFn fun l => if s.E.getLsbD l then v[l] else 0⟩
  else ⟨s.warp.vdest n, s.E, v⟩

/-- R71, R102: a match-like destination, 0 outside E whatever Z holds. -/
def State.zW (s : State) (n : Nat) (v : VReg) : Write :=
  ⟨s.warp.vdest n, allLanes, Vector.ofFn fun l => if s.E.getLsbD l then v[l] else 0⟩

/-- R71: a lane-mask destination, bit L the outcome in the lanes of E and 0 elsewhere. -/
def GivesMask (i : Instr) (s s' : State) (lat : Option Nat) (m : Nat) (f : Fin 32 → Bool) : Prop :=
  ∃ v : Word, (∀ l : Fin 32, v.getLsbD l = (s.E.getLsbD l && f l)) ∧ Gives i s s' lat [mW m v]

/-! ## Moulds of compute words -/

/-- Two-address uniform words with a 32-bit and a pair form (R75): the operation at both widths. -/
def Uni (i : BitVec 7 → BitVec 7 → BitVec 1 → Instr) (f : (n : Nat) → BitVec n → BitVec n → BitVec n) : Prop :=
  ∀ d a s, Gives (i d a 0) s s (some 1) [uW d.toNat (f 32 (s.U d.toNat) (s.U a.toNat))] ∧
    Gives (i d a 1) s s (some 1) (uPair d.toNat (f 64 (s.UD d.toNat) (s.UD a.toNat)))

/-- The same with a second operand that both forms read from one register. -/
def UniLow (i : BitVec 7 → BitVec 7 → BitVec 1 → Instr) (f : (n : Nat) → BitVec n → Word → BitVec n) : Prop :=
  ∀ d a s, Gives (i d a 0) s s (some 1) [uW d.toNat (f 32 (s.U d.toNat) (s.U a.toNat))] ∧
    Gives (i d a 1) s s (some 1) (uPair d.toNat (f 64 (s.UD d.toNat) (s.U a.toNat)))

/-- 32-bit only. -/
def Uni32 (i : BitVec 7 → BitVec 7 → Instr) (f : Word → Word → Word) : Prop :=
  ∀ d a s, Gives (i d a) s s (some 1) [uW d.toNat (f (s.U d.toNat) (s.U a.toNat))]

/-- Lane by lane from `va`. -/
def Vec1 (lat : Nat) (i : BitVec 6 → BitVec 6 → Instr) (f : RMode → Word → Word) : Prop :=
  ∀ d a s, Gives (i d a) s (s.vsrc 2 a).2 (some lat) [s.vW d.toNat (Vector.ofFn fun l => f s.mode ((s.vsrc 2 a).1)[l])]

/-- Lane by lane from `va` and `vb`. -/
def Vec2 (lat : Nat) (i : BitVec 6 → BitVec 6 → BitVec 6 → Instr) (f : RMode → Word → Word → Word) : Prop :=
  ∀ d a b s, Gives (i d a b) s (s.vsrc2 a b).2.2 (some lat)
    [s.vW d.toNat (Vector.ofFn fun l => f s.mode ((s.vsrc2 a b).1)[l] ((s.vsrc2 a b).2.1)[l])]

/-- Lane by lane from `va`, `vb` and the old lane of `vd`. -/
def VecAcc (lat : Nat) (i : BitVec 6 → BitVec 6 → BitVec 6 → Instr) (f : RMode → Word → Word → Word → Word) : Prop :=
  ∀ d a b s, Gives (i d a b) s (s.vsrc2 a b).2.2 (some lat)
    [s.vW d.toNat (Vector.ofFn fun l => f s.mode ((s.vsrc2 a b).1)[l] ((s.vsrc2 a b).2.1)[l] (s.V d.toNat)[l])]

/-- A compare of `va` with `vb` into a lane mask. -/
def VecCmp (lat : Nat) (i : BitVec 3 → BitVec 6 → BitVec 6 → Instr) (f : Word → Word → Bool) : Prop :=
  ∀ m a b s, GivesMask (i m a b) s (s.vsrc2 a b).2.2 (some lat) m.toNat
    fun l => f ((s.vsrc2 a b).1)[l] ((s.vsrc2 a b).2.1)[l]

/-- Half by half, and byte by byte (R85, R87). -/
def Halves (f : BitVec 16 → BitVec 16 → BitVec 16) (x y : Word) : Word :=
  f (x.extractLsb' 16 16) (y.extractLsb' 16 16) ++ f (x.extractLsb' 0 16) (y.extractLsb' 0 16)
def Bytes (f : BitVec 8 → BitVec 8 → BitVec 8) (x y : Word) : Word :=
  f (x.extractLsb' 24 8) (y.extractLsb' 24 8) ++ f (x.extractLsb' 16 8) (y.extractLsb' 16 8) ++
    f (x.extractLsb' 8 8) (y.extractLsb' 8 8) ++ f (x.extractLsb' 0 8) (y.extractLsb' 0 8)

/-- Major `maj` of the V3 format with minor code `fn` is the instruction `i`: `vd` in [21:16], `va` in [15:10], `vb` in [9:4]
and fn in [3:0], under every header (R43, R50). -/
def DecodesV3 (maj : BitVec 6) (fn : BitVec 4) (i : BitVec 6 → BitVec 6 → BitVec 6 → Instr) : Prop :=
  ∀ (h : Header) d a b, decodeWord (BitVec.ofBool h.cb ++ h.stall ++ maj ++ d ++ a ++ b ++ fn) = .ok (i d a b)

/-! ## Memory accesses -/

/-- The place of every lane of E (R106, R108, R115). -/
def State.Reaches (s : State) (a : Access) (sz : Nat) (addr : Nat → DWord) (pl : Fin 32 → Place) : Prop :=
  ∀ l : Fin 32, s.E.getLsbD l = true → place s a (addr l) sz = .ok (pl l)

/-- R108: the address of a lane; `u` is the immediate unit. -/
def memLane (b : DWord) (m : BitVec 2) (sz u i l : Nat) : DWord :=
  if m = 0 then b + BitVec.ofNat 64 (i * u) + BitVec.ofNat 64 (l * sz)
  else if m = 3 then b + BitVec.ofNat 64 (l * sz * (i + 1))
  else b + BitVec.ofNat 64 (l * sz)

/-- LEN and BASE of modulo register `n` (R14). -/
def State.ringLen (s : State) (n : Nat) : Nat := (((s.warp.q[n]?).getD 0).extractLsb' 24 24).toNat
def State.ringBase (s : State) (n : Nat) : Nat := (((s.warp.q[n]?).getD 0).extractLsb' 0 24).toNat

/-- R108, R111: the write of the base pair; `u` is the immediate unit and `inc` the unit of mode 10. -/
def State.bump (s : State) (p : BitVec 6) (m : BitVec 2) (u inc : Nat) (i : BitVec 4) : List Write :=
  let b := s.UD (2 * p.toNat)
  let n := i.toNat / 4
  let low : Int := (b.extractLsb' 0 24).toNat
  if m = 1 then uPair (2 * p.toNat) (b + BitVec.ofNat 64 (i.toNat * u))
  else if m = 2 then
    uPair (2 * p.toNat) (b.extractLsb' 24 40 ++
      BitVec.ofInt 24 ((s.ringBase n : Int) + (low - (s.ringBase n : Int) + ((inc * 2 ^ (i.toNat % 4) : Nat) : Int)) % (s.ringLen n : Int)))
  else []

/-- Lane values in a vector register, or their halves in a pair; 0 in lanes outside E. -/
def State.laned (s : State) (f : Fin 32 → Nat) (sh : Nat) : VReg :=
  Vector.ofFn fun l => if s.E.getLsbD l then BitVec.ofNat 32 (f l / 2 ^ sh) else 0

def State.loaded (s : State) (n : Nat) (wide : Bool) (f : Fin 32 → Nat) : List Write :=
  if wide then [s.vW n (s.laned f 0), s.vW (n + 1) (s.laned f 32)] else [s.vW n (s.laned f 0)]

/-- The value of a lane's source, in a register or a pair. -/
def State.source (s : State) (n : Nat) (wide : Bool) (l : Fin 32) : Nat :=
  (s.V n)[l].toNat + if wide then (s.V (n + 1))[l].toNat * 2 ^ 32 else 0

/-- A new entry at the end of a data queue, which arrives later; it waits behind a queue of eight (R15, R113, R288). -/
def State.queued (s : State) (n : Nat) (v : VReg) (b : DWord) : State :=
  let q := (s.warp.dq[n]?).getD []
  let room := 8 - q.length
  let l := (s.warp.dqWait[n]?).getD [] ++
    [⟨s.nextId, s.issue.sp, false, v, s.issue.word, if s.issue.pfx.isSome then s.issue.pword else 0, s.E, b, s.loadIndex, false⟩]
  { s with warp := { s.warp with dq := s.warp.dq.setIfInBounds n (q ++ l.take room), dqWait := s.warp.dqWait.setIfInBounds n (l.drop room) } }

/-- An operation of the engines, at the end of the list; `id` is its number. -/
def State.issues (s : State) (id : Nat) (c : CClass) (k : EngKind) (off : Nat) (cmd : Vector Word 4 := noCmd) : State :=
  { s with ops := s.ops ++ [⟨id, s.warp.key, s.ctx.id, s.warp.wslot, s.warp.level, c, k, cmd, false, false, off, [], none, s.issue.pkt⟩] }

/-- The command registers of a command word as they stand at issue (R151). -/
def State.command (s : State) (g : BitVec 7) : Vector Word 4 := #v[s.U g.toNat, s.U (g.toNat + 1), s.U (g.toNat + 2), s.U (g.toNat + 3)]

/-- Room in a counter of the warp (R19). -/
def State.Room (s : State) (c : CClass) : Prop := (s.ops.filter fun o => o.key = s.warp.key && o.cls = c).length < 63

/-- A byte inside the n bytes at a place. -/
def Place.holds : Place → Nat → Place → Bool
  | .mem pa _, n, .mem a _ => decide (pa ≤ a) && decide (a < pa + n)
  | .scratch c x o, n, .scratch d y a => decide (c = d) && decide (x = y) && decide (o ≤ a) && decide (a < o + n)
  | .cellar o, n, .cellar a => decide (o ≤ a) && decide (a < o + n)
  | _, _, _ => false

/-- A byte that a write of n bytes at a place may change: the bytes written; for a reader with another key every byte of the
lines written, which the key of the writer takes over (R295); and the line of a cell that a 32-bit write to its control
word arms (R235). -/
def Place.touches : Place → Nat → Place → Bool
  | .mem pa k, n, .mem a r => (decide (pa ≤ a) && decide (a < pa + n)) || (r != k && decide (pa / 64 ≤ a / 64) && decide (a / 64 ≤ (pa + n - 1) / 64))
  | .scratch c x o, n, .scratch d y a => decide (c = d) && decide (x = y) && decide (o ≤ a) && decide (a < o + n)
  | .cellar o, n, .cellar a => (decide (o ≤ a) && decide (a < o + n)) || (decide (n = 4) && decide (o % 64 = 0) && decide (a / 64 = o / 64))
  | _, _, _ => false

/-- The byte `i` of a place. -/
def Place.byte (i : Nat) : Place → Place
  | .mem pa k => .mem (pa + i) k
  | .scratch c x o => .scratch c x (o + i)
  | .cellar o => .cellar (o + i)

/-- A byte of the reserve of a checkpoint that is being drained: a write to a frozen granule copies the granule there (R347). -/
def State.inReserve (s : State) : Place → Bool
  | .mem a _ => s.ck.any fun c => c.phase = 2 && decide (c.base / 4096 ≤ a / 4096) && decide (a / 4096 < c.base / 4096 + 16 * c.reserve)
  | _ => false

/-- A block without its memory. -/
def Block.bare (b : Block) : Block := { b with scratch := [], spoison := [] }

/-- `t` is `s` with memory changed at the places of `P` alone, each with its number of bytes, and in the reserve of a checkpoint. Outside the reserve a unit
is poisoned only if it was, and stays so if one of its bytes is not written (R331). -/
structure OnlyAt (s t : State) (P : List (Place × Nat)) : Prop where
  rest : t = { s with
    mem := t.mem, poison := t.poison, lineKey := t.lineKey, cellar := t.cellar, clines := t.clines, ck := t.ck, blk := t.blk, blks := t.blks }
  blk : t.blk.bare = s.blk.bare
  blks : ∀ c x, (t.getBlk c x).map Block.bare = (s.getBlk c x).map Block.bare
  bytes : ∀ q : Place, s.inReserve q = false → (∀ p ∈ P, p.1.touches p.2 q = false) → t.readPlace q 1 = s.readPlace q 1
  lines : ∀ n, (∀ off k, (Place.cellar off, k) ∈ P → off / 64 ≠ n) → t.cline n = s.cline n
  poison : ∀ q : Place, s.inReserve q = false → t.poisoned q 1 = true → s.poisoned q 1 = true
  kept : ∀ q r : Place, s.inReserve q = false → s.poisoned q 1 = true → r.unit.1 = q.unit.1 → (∀ p ∈ P, p.1.holds p.2 r = false) → t.poisoned q 1 = true

/-- R112: the granules of `gs` are set full and nothing else differs. -/
structure SetsFull (s t : State) (gs : List (Nat × Nat × Nat)) : Prop where
  rest : t = { s with blk := t.blk, blks := t.blks }
  blk : { t.blk with full := [] } = { s.blk with full := [] }
  blks : ∀ c x, (t.getBlk c x).map (fun b => { b with full := [] }) = (s.getBlk c x).map (fun b => { b with full := [] })
  full : ∀ g, (s.getBlk g.1 g.2.1).isSome = true → t.isFull g = (s.isFull g || gs.contains g)

/-- A store of `sz` bytes by the lanes `ls`, in increasing order: `m` is the state after it. A lane's bytes are read back where
no later lane's store touches them, outside the reserve of a checkpoint; in the cellar, on a plain line, when no lane arms a cell (R235). -/
def Stores (s m : State) (ls : List (Fin 32)) (sz : Nat) (fs : Bool) (pl : Fin 32 → Place) (val : Fin 32 → Nat) : Prop :=
  ∃ u, OnlyAt s u (ls.map fun l => (pl l, sz)) ∧
    (∀ l ∈ ls, (∀ k ∈ ls, l < k → ∀ i < sz, (pl k).touches sz ((pl l).byte i) = false) → s.inReserve (pl l) = false →
      (∀ off, pl l = .cellar off → (s.cline (off / 64)).st = 0 ∧
        (sz = 4 → ∀ k ∈ ls, ∀ o, pl k = .cellar o → o % 64 ≠ 0 ∨ val k % 2 ^ 32 < 2 ^ 31)) →
      u.readPlace (pl l) sz = leBytes sz (val l)) ∧
    if fs then SetsFull u m (ls.filterMap fun l => (pl l).granule) else m = u

/-! ## Engine operations performed (R239) -/

/-- `o` is the oldest operation, no other one has finished, and its engine may perform it: its warp runs, no slot of its block
waits for an event or is taken in by the slot before it, and no drain is on. -/
structure State.Ready (s : State) (o : EngOp) (r : List EngOp) : Prop where
  active : s.active = false
  ops : s.ops = o :: r
  rest : ∀ x ∈ r, x.id ≠ o.id ∧ x.done = false
  drains : ∀ c ∈ s.cores, c.drainUntil = none
  self : o.done = false ∧ o.cancelled = false ∧ o.token = none ∧ o.key.core < 1024 ∧ o.key.slot < 4
  warp : ∃ w, s.getWarp o.key = some w ∧ w.exited = false
  blk : ∃ b, s.getBlk o.key.core o.key.slot = some b ∧ b.joinPairs = b ∧ ∀ x ∈ b.oslots, x.events = []
  ctx : (s.getCtx o.ctx).isSome = true

/-- ENGINE_OP_COMPLETE performs `o`, which retires: memory, blocks and warps are those of `u`, and the clock and the names those
of `s`. -/
def State.Performs (s : State) (o : EngOp) (r : List EngOp) (u : State) : Prop :=
  ∃ t, Sys2Proof.Machine.exec (.engineOpComplete o.id) s = .next t ∧ t.ops = r ∧ t.mem = u.mem ∧ t.lineKey = u.lineKey ∧ t.poison = u.poison ∧
    t.cellar = u.cellar ∧ t.clines = u.clines ∧ t.clock = s.clock ∧ t.names = s.names ∧
    (∀ c x, t.getBlk c x = u.getBlk c x) ∧ ∀ k, t.getWarp k = u.getWarp k

/-- Where a place begins in its space. -/
def Place.off : Place → Nat
  | .mem pa _ => pa
  | .scratch _ _ o => o
  | .cellar o => o

/-- Places of lanes as the translation of an access of sz bytes leaves them: aligned, and in a block that is there (R106). -/
def State.Placed (s : State) (ls : List (Fin 32)) (sz : Nat) (pl : Fin 32 → Place) : Prop :=
  ∀ l ∈ ls, (pl l).off % sz = 0 ∧ ∀ c x o, pl l = .scratch c x o → (s.getBlk c x).isSome = true

end Sys2Proof.Machine
end

