-- ==== Sys2Proof/Certificates/Slice0/Obligations.lean ====
section
/-!
DEFINITION. The statements for the provers.
-/
section
open Sys2Proof Sys2Proof.Machine

/-! ## Uniform words -/

/-- R75, R76: the two-address unit, 32-bit and pair forms; a divisor of zero gives a quotient of ones and the dividend as
remainder; every result is seen one cycle later (R48). -/
def Obligations.UniformArithmetic : Prop :=
  Uni .sadd (fun _ a b => a + b) ∧ Uni .ssub (fun _ a b => a - b) ∧ Uni .smul (fun _ a b => a * b) ∧
  Uni32 .smulhI32 (fun a b => ((a.signExtend 64 * b.signExtend 64) >>> 32).setWidth 32) ∧
  Uni32 .smulhN32 (fun a b => ((a.setWidth 64 * b.setWidth 64) >>> 32).setWidth 32) ∧
  Uni32 .sdivI32 (fun a b => if b = 0 then 0xFFFFFFFF#32 else a.sdiv b) ∧
  Uni32 .sdivN32 (fun a b => if b = 0 then 0xFFFFFFFF#32 else a.udiv b) ∧
  Uni32 .sremI32 (fun a b => if b = 0 then a else a.srem b) ∧
  Uni32 .sremN32 (fun a b => if b = 0 then a else a.umod b) ∧
  Uni .sminI (fun _ a b => if a.toInt ≤ b.toInt then a else b) ∧ Uni .sminN (fun _ a b => if a.toNat ≤ b.toNat then a else b) ∧
  Uni .smaxI (fun _ a b => if a.toInt ≤ b.toInt then b else a) ∧ Uni .smaxN (fun _ a b => if a.toNat ≤ b.toNat then b else a) ∧
  Uni .sand (fun _ a b => a &&& b) ∧ Uni .sor (fun _ a b => a ||| b) ∧ Uni .sxor (fun _ a b => a ^^^ b) ∧
  Uni .sandn (fun _ a b => a &&& ~~~b) ∧ Uni .smov (fun _ _ b => b) ∧
  UniLow .sshl (fun _ a c => a <<< c.toNat) ∧ UniLow .sshr (fun _ a c => a >>> c.toNat) ∧
  UniLow .ssar (fun _ a c => a.sshiftRight c.toNat) ∧
  Uni32 .sdivI32 (fun a b => if a = 0x80000000#32 ∧ b = 0xFFFFFFFF#32 then 0x80000000#32 else if b = 0 then 0xFFFFFFFF#32 else a.sdiv b) ∧
  Uni32 .sremI32 (fun a b => if a = 0x80000000#32 ∧ b = 0xFFFFFFFF#32 then 0 else if b = 0 then a else a.srem b)

/-- R74, R75: extract and insert by a field spec, bit by bit: pos in [4:0], width in [13:8], sign in [16]; the extract of a pair has
pos in [5:0] and width in [14:8]. The model's choices here: assumption 70. -/
def Obligations.FieldSpecs : Prop :=
  (∀ x f : Word, ∀ i < 32,
    let pos := (f.extractLsb' 0 5).toNat
    let w := min (f.extractLsb' 8 6).toNat (32 - pos)
    (extract32 x f).getLsbD i = (decide (w ≠ 0) && if i < w then x.getLsbD (pos + i) else f.getLsbD 16 && x.getLsbD (pos + w - 1))) ∧
  (∀ (x : DWord) (f : Word), ∀ i < 64,
    let pos := (f.extractLsb' 0 6).toNat
    let w := min (f.extractLsb' 8 7).toNat (64 - pos)
    (extract64 x f).getLsbD i = (decide (w ≠ 0) && if i < w then x.getLsbD (pos + i) else f.getLsbD 16 && x.getLsbD (pos + w - 1))) ∧
  (∀ x v f : Word, ∀ i < 32,
    let pos := (f.extractLsb' 0 5).toNat
    let w := min (f.extractLsb' 8 6).toNat (32 - pos)
    (insert32 x v f).getLsbD i = if pos ≤ i ∧ i < pos + w then v.getLsbD (i - pos) else x.getLsbD i)

/-- R75: the field words, the counts and the select. `spopc` counts one bits, `sclz` the zeros above the highest one.
The model's choices here: assumption 70. -/
def Obligations.UniformFields : Prop :=
  (∀ d a s, Gives (.sbfe d a 0) s s (some 1) [uW d.toNat (extract32 (s.U d.toNat) (s.U a.toNat))] ∧
    Gives (.sbfe d a 1) s s (some 1) (uPair d.toNat (extract64 (s.UD d.toNat) (s.U a.toNat)))) ∧
  (∀ d a s, Gives (.sbfi d a) s s (some 1) [uW d.toNat (insert32 (s.U d.toNat) (s.U a.toNat) (s.U (a.toNat + 1)))]) ∧
  Uni .spopc (fun n _ b => BitVec.ofNat n ((List.range n).filter fun k => b.getLsbD k).length) ∧
  (∃ c : (n : Nat) → BitVec n → Nat, Uni .sclz (fun n _ b => BitVec.ofNat n (c n b)) ∧
    ∀ n, n = 32 ∨ n = 64 → ∀ b : BitVec n, c n b ≤ n ∧ b.toNat < 2 ^ (n - c n b) ∧ (c n b < n → b.getLsbD (n - 1 - c n b) = true)) ∧
  (∀ p : BitVec 3, ∀ d a s, Gives (.ssel d a 0 p) s s (some 1) [uW d.toNat (if s.P p.toNat then s.U a.toNat else s.U d.toNat)] ∧
    Gives (.ssel d a 1 p) s s (some 1) (uPair d.toNat (if s.P p.toNat then s.UD a.toNat else s.UD d.toNat)))

/-- R77 to R79: the uniform immediates; a compare writes its predicate by the condition code, and a write to p0 or m0 is
discarded; `plog` takes the truth table's bit at 2 × pa + pb, `plog.m` for every bit of the mask, whatever the active mask. -/
def Obligations.UniformImmediatesAndPredicates : Prop :=
  ((∀ d i s, Gives (.saddi d i) s s (some 1) [uW d.toNat (s.U d.toNat + i.signExtend 32)]) ∧
  (∀ d i s, Gives (.smovi d i) s s (some 1) [uW d.toNat (i.signExtend 32)]) ∧
  (∀ d i s, Gives (.smovh d i) s s (some 1) [uW d.toNat ((s.U d.toNat).extractLsb' 0 17 ++ i)])) ∧
  (∃ cc : (c n : Nat) → BitVec n → BitVec n → Bool,
    (∀ n, ∀ a b : BitVec n,
      cc 0 n a b = decide (a = b) ∧ cc 1 n a b = decide (a ≠ b) ∧ cc 2 n a b = decide (a.toInt < b.toInt) ∧
      cc 3 n a b = decide (a.toInt ≤ b.toInt) ∧ cc 4 n a b = decide (b.toInt < a.toInt) ∧ cc 5 n a b = decide (b.toInt ≤ a.toInt) ∧
      cc 6 n a b = decide (a.toNat < b.toNat) ∧ cc 7 n a b = decide (a.toNat ≤ b.toNat) ∧ cc 8 n a b = decide (b.toNat < a.toNat) ∧
      cc 9 n a b = decide (b.toNat ≤ a.toNat) ∧ cc 10 n a b = decide (a &&& b ≠ 0) ∧ cc 11 n a b = decide (a &&& b = 0)) ∧
    (∀ p c a b s, Gives (.scmp p c a b 0) s s (some 1) [pW p.toNat (cc c.toNat 32 (s.U a.toNat) (s.U b.toNat))] ∧
      Gives (.scmp p c a b 1) s s (some 1) [pW p.toNat (cc c.toNat 64 (s.UD a.toNat) (s.UD b.toNat))]) ∧
    (∀ p c a i s,
      let imm (n : Nat) : BitVec n := if c.toNat ≤ 5 then i.signExtend n else i.setWidth n
      Gives (.scmpi p c a i 0) s s (some 1) [pW p.toNat (cc c.toNat 32 (s.U a.toNat) (imm 32))] ∧
      Gives (.scmpi p c a i 1) s s (some 1) [pW p.toNat (cc c.toNat 64 (s.UD a.toNat) (imm 64))]) ∧
    (∀ (w : Warp) v, w.writeDest (.p 0) allLanes v = w ∧ w.writeDest (.m 0) allLanes v = w)) ∧
  ((∀ d b a u s, Gives (.plog d b a u) s s (some 1)
    [pW d.toNat (u.getLsbD (2 * (if s.P a.toNat then 1 else 0) + if s.P b.toNat then 1 else 0))]) ∧
  (∀ d b a u s, ∃ v : Word,
    (∀ i : Fin 32, v.getLsbD i = u.getLsbD (2 * (if (s.M a.toNat).getLsbD i then 1 else 0) + if (s.M b.toNat).getLsbD i then 1 else 0)) ∧
    Gives (.plogM d b a u) s s (some 1) [mW d.toNat v]))

/-! ## Vector words that compute -/

/-- R82 and the operations of R81's table: 32-bit lanes, results after four cycles (R48), written by R71; and the words of the
immediate majors. -/
def Obligations.VectorArithmetic : Prop :=
  Vec2 4 .vadd (fun _ a b => a + b) ∧ Vec2 4 .vsub (fun _ a b => a - b) ∧ Vec2 4 .vmul (fun _ a b => a * b) ∧
  Vec2 4 .vmulhI32 (fun _ a b => ((a.signExtend 64 * b.signExtend 64) >>> 32).setWidth 32) ∧
  Vec2 4 .vmulhN32 (fun _ a b => ((a.setWidth 64 * b.setWidth 64) >>> 32).setWidth 32) ∧
  (∀ d a b s, Gives (.vmad d a b) s (s.vsrc3 a b).2.2.2 (some 4) [s.vW d.toNat (Vector.ofFn fun l =>
    ((s.vsrc3 a b).1)[l] * ((s.vsrc3 a b).2.1)[l] + ((s.vsrc3 a b).2.2.1)[l])]) ∧
  Vec2 4 .vabsdI32 (fun _ a b => if a.toInt ≤ b.toInt then b - a else a - b) ∧
  Vec2 4 .vand (fun _ a b => a &&& b) ∧ Vec2 4 .vor (fun _ a b => a ||| b) ∧ Vec2 4 .vxor (fun _ a b => a ^^^ b) ∧
  Vec2 4 .vandn (fun _ a b => a &&& ~~~b) ∧ Vec2 4 .vshl (fun _ a b => a <<< b.toNat) ∧ Vec2 4 .vshr (fun _ a b => a >>> b.toNat) ∧
  Vec2 4 .vsar (fun _ a b => a.sshiftRight b.toNat) ∧
  Vec1 4 .vpopc (fun _ a => BitVec.ofNat 32 ((List.range 32).filter fun k => a.getLsbD k).length) ∧
  (∃ c : Word → Nat, Vec1 4 .vclz (fun _ a => BitVec.ofNat 32 (c a)) ∧
    ∀ a, c a ≤ 32 ∧ a.toNat < 2 ^ (32 - c a) ∧ (c a < 32 → a.getLsbD (31 - c a) = true)) ∧
  (∀ i : BitVec 10, Vec1 4 (fun d a => .vaddi d a i) (fun _ a => a + i.signExtend 32)) ∧
  (∀ d i s, Gives (.vmovi d i) s s (some 4) [s.vW d.toNat (splat (i.signExtend 32))]) ∧
  (∀ d i s, Gives (.vmovh d i) s s (some 4) [s.vW d.toNat (Vector.ofFn fun l => ((s.V d.toNat)[l]).extractLsb' 0 17 ++ i)]) ∧
  (∀ (h : Header) (d a : BitVec 6),
    let head (maj : BitVec 6) := BitVec.ofBool h.cb ++ h.stall ++ maj ++ d
    (∀ i : BitVec 10, decodeWord (head 0x11 ++ a ++ i) = .ok (.vaddi d a i)) ∧
    ∀ i : BitVec 15, decodeWord (head 0x12 ++ 0#1 ++ i) = .ok (.vmovi d i) ∧ decodeWord (head 0x12 ++ 1#1 ++ i) = .ok (.vmovh d i))

/-- R83, R84: compares into a lane mask, select, move, broadcast, minimum and maximum; bit fields lane by lane, packing with the
narrowing that bits [1:0] of `sb` choose, and unpacking into pairs and quadruples. -/
def Obligations.VectorSelectsAndBitFields : Prop :=
  (VecCmp 4 .vcmpEqI32 (fun a b => decide (a = b)) ∧ VecCmp 4 .vcmpNeI32 (fun a b => decide (a ≠ b)) ∧
  VecCmp 4 .vcmpLtI32 (fun a b => decide (a.toInt < b.toInt)) ∧ VecCmp 4 .vcmpLeI32 (fun a b => decide (a.toInt ≤ b.toInt)) ∧
  VecCmp 4 .vcmpLtN32 (fun a b => decide (a.toNat < b.toNat)) ∧ VecCmp 4 .vcmpLeN32 (fun a b => decide (a.toNat ≤ b.toNat)) ∧
  (∀ d a b s, Gives (.vsel d a b) s (s.vsrc2 a b).2.2 (some 4) [s.vW d.toNat (Vector.ofFn fun l =>
    if (s.M (s.pfx.v.extractLsb' 0 3).toNat).getLsbD l then ((s.vsrc2 a b).1)[l] else ((s.vsrc2 a b).2.1)[l])]) ∧
  Vec1 4 .vmov (fun _ a => a) ∧
  (∀ d a, ∀ n : BitVec 5, ∀ s, Gives (.vbcast d a n) s (s.vsrc 2 a).2 (some 4) [s.vW d.toNat (splat (((s.vsrc 2 a).1)[n.toFin]))]) ∧
  Vec2 4 .vminI32 (fun _ a b => if a.toInt ≤ b.toInt then a else b) ∧ Vec2 4 .vminN32 (fun _ a b => if a.toNat ≤ b.toNat then a else b) ∧
  Vec2 4 .vmaxI32 (fun _ a b => if a.toInt ≤ b.toInt then b else a) ∧ Vec2 4 .vmaxN32 (fun _ a b => if a.toNat ≤ b.toNat then b else a)) ∧
  ((∀ b : BitVec 7, ∀ d a s, Gives (.vbfe d a b) s (s.vsrc 2 a).2 (some 4) [s.vW d.toNat (Vector.ofFn fun l =>
    extract32 ((s.vsrc 2 a).1)[l] (s.U b.toNat))]) ∧
  (∀ b : BitVec 7, ∀ d a s, Gives (.vbfi d a b) s (s.vsrc 2 a).2 (some 4) [s.vW d.toNat (Vector.ofFn fun l =>
    insert32 (s.V d.toNat)[l] ((s.vsrc 2 a).1)[l] (s.U b.toNat))]) ∧
  (∃ nar : (n : Nat) → Word → Word → BitVec n,
    (∀ n, n = 8 ∨ n = 16 → ∀ sel x : Word,
      let m := sel.extractLsb' 0 2
      (m = 0 ∨ m = 3 → nar n sel x = x.extractLsb' 0 n) ∧
      (m = 1 → (nar n sel x).toInt = max (-(2 ^ (n - 1))) (min (2 ^ (n - 1) - 1) x.toInt)) ∧
      (m = 2 → ((nar n sel x).toNat : Int) = max 0 (min (2 ^ n - 1) x.toInt))) ∧
    (∀ d a b s, Gives (.vpackH2 d a b) s s (some 4) [s.vW d.toNat (Vector.ofFn fun l =>
      nar 16 (s.U b.toNat) (s.V (a.toNat + 1))[l] ++ nar 16 (s.U b.toNat) (s.V a.toNat)[l])]) ∧
    (∀ d a b s, Gives (.vpackB4 d a b) s s (some 4) [s.vW d.toNat (Vector.ofFn fun l =>
      nar 8 (s.U b.toNat) (s.V (a.toNat + 3))[l] ++ nar 8 (s.U b.toNat) (s.V (a.toNat + 2))[l] ++
        nar 8 (s.U b.toNat) (s.V (a.toNat + 1))[l] ++ nar 8 (s.U b.toNat) (s.V a.toNat)[l])])) ∧
  (∀ d a s,
    let x := s.vsrc 2 a
    let h (k : Nat) (f : BitVec 16 → Word) : Write := s.vW (d.toNat + k) (Vector.ofFn fun l => f ((x.1[l]).extractLsb' (16 * k) 16))
    let b (k : Nat) (f : BitVec 8 → Word) : Write := s.vW (d.toNat + k) (Vector.ofFn fun l => f ((x.1[l]).extractLsb' (8 * k) 8))
    Gives (.vunpackI16 d a) s x.2 (some 4) [h 0 (·.signExtend 32), h 1 (·.signExtend 32)] ∧
    Gives (.vunpackN16 d a) s x.2 (some 4) [h 0 (·.setWidth 32), h 1 (·.setWidth 32)] ∧
    Gives (.vunpackI8 d a) s x.2 (some 4) [b 0 (·.signExtend 32), b 1 (·.signExtend 32), b 2 (·.signExtend 32), b 3 (·.signExtend 32)] ∧
    Gives (.vunpackN8 d a) s x.2 (some 4) [b 0 (·.setWidth 32), b 1 (·.setWidth 32), b 2 (·.setWidth 32), b 3 (·.setWidth 32)]))

/-- R85 to R88: packed halves and bytes as signed values, whose saturating forms clamp the exact result; add-compare-select, where
ties choose `va` and the two survivor bits enter the partner register at [1:0]; dot products, exact before they wrap or saturate. -/
def Obligations.PackedAndDotIntegers : Prop :=
  (let sat (n : Nat) (x : Int) : BitVec n := BitVec.ofInt n (max (-(2 ^ (n - 1))) (min (2 ^ (n - 1) - 1) x))
  Vec2 4 .vaddH2 (fun _ => Halves fun x y => x + y) ∧ Vec2 4 .vaddsH2 (fun _ => Halves fun x y => sat 16 (x.toInt + y.toInt)) ∧
  Vec2 4 .vsubH2 (fun _ => Halves fun x y => x - y) ∧ Vec2 4 .vsubsH2 (fun _ => Halves fun x y => sat 16 (x.toInt - y.toInt)) ∧
  Vec2 4 .vminH2 (fun _ => Halves fun x y => if x.toInt ≤ y.toInt then x else y) ∧
  Vec2 4 .vmaxH2 (fun _ => Halves fun x y => if x.toInt ≤ y.toInt then y else x) ∧
  Vec2 4 .vaddB4 (fun _ => Bytes fun x y => x + y) ∧ Vec2 4 .vaddsB4 (fun _ => Bytes fun x y => sat 8 (x.toInt + y.toInt)) ∧
  Vec2 4 .vminB4 (fun _ => Bytes fun x y => if x.toInt ≤ y.toInt then x else y) ∧
  Vec2 4 .vmaxB4 (fun _ => Bytes fun x y => if x.toInt ≤ y.toInt then y else x) ∧
  Vec2 4 .vabsdB4 (fun _ => Bytes fun x y => if x.toInt ≤ y.toInt then y - x else x - y)) ∧
  (∀ d a b s,
    let x := (s.vsrc2 a b).1
    let y := (s.vsrc2 a b).2.1
    let win (l : Fin 32) (h : Nat) : Bool := decide (((x[l]).extractLsb' (16 * h) 16).toInt < ((y[l]).extractLsb' (16 * h) 16).toInt)
    let pick (l : Fin 32) (h : Nat) : BitVec 16 := if win l h then (y[l]).extractLsb' (16 * h) 16 else (x[l]).extractLsb' (16 * h) 16
    Gives (.vacsH2 d a b) s (s.vsrc2 a b).2.2 (some 4)
      [s.vW d.toNat (Vector.ofFn fun l => pick l 1 ++ pick l 0),
       s.vW (d.toNat + 1) (Vector.ofFn fun l => ((s.V (d.toNat + 1))[l]).extractLsb' 0 30 ++ BitVec.ofBool (win l 1) ++ BitVec.ofBool (win l 0))]) ∧
  (let elt (x : Word) (i w : Nat) (sg : BitVec 1) : Int := if sg = 1 then (x.extractLsb' (w * i) w).toInt else (x.extractLsb' (w * i) w).toNat
  let total (n w : Nat) (a b : BitVec 1) (x y c : Word) : Int := c.toInt + ((List.range n).map fun i => elt x i w a * elt y i w b).sum
  let result (sat : BitVec 1) (t : Int) : Word := BitVec.ofInt 32 (if sat = 1 then max (-2147483648) (min 2147483647 t) else t)
  (∀ a b z : BitVec 1, VecAcc 6 (fun d x y => .vdot4 d x y a b z) (fun _ x y c => result z (total 4 8 a b x y c))) ∧
  (∀ a b z : BitVec 1, VecAcc 6 (fun d x y => .vdot8 d x y a b z) (fun _ x y c => result z (total 8 4 a b x y c)))) ∧
  (DecodesV3 0x13 0 .vaddH2 ∧ DecodesV3 0x13 1 .vaddsH2 ∧ DecodesV3 0x13 2 .vsubH2 ∧ DecodesV3 0x13 3 .vsubsH2 ∧
  DecodesV3 0x13 4 .vminH2 ∧ DecodesV3 0x13 5 .vmaxH2 ∧ DecodesV3 0x13 6 .vacsH2 ∧
  (∀ d a b : BitVec 6, (Instr.vacsH2 d a b).wf = decide (d.toNat % 2 = 0)) ∧
  DecodesV3 0x14 0 .vaddB4 ∧ DecodesV3 0x14 1 .vaddsB4 ∧ DecodesV3 0x14 2 .vminB4 ∧ DecodesV3 0x14 3 .vmaxB4 ∧ DecodesV3 0x14 4 .vabsdB4 ∧
  ∀ a b z : BitVec 1, DecodesV3 0x15 (0#1 ++ a ++ b ++ z) (fun d x y => .vdot4 d x y a b z) ∧
    DecodesV3 0x15 (1#1 ++ a ++ b ++ z) (fun d x y => .vdot8 d x y a b z))
/-- R89, R73: the arithmetic of the three float majors, element by element; a result is rounded once from the exact value
under the prefix's mode, and the codes that do not round change a sign bit or choose an operand. -/
def Obligations.FloatArithmetic : Prop :=
  let on32 (g : Fmt → Nat → Nat → Nat) (x y : Word) : Word := BitVec.ofNat 32 (g fp32 x.toNat y.toNat)
  let on16 (f : Fmt) (g : Fmt → Nat → Nat → Nat) : Word → Word → Word := Halves fun x y => BitVec.ofNat 16 (g f x.toNat y.toNat)
  let mag (f : Fmt) (x : Nat) : Nat :=
    if f.flush = true ∧ (x >>> f.mb) % 2 ^ f.eb = 0 then 0 else x % 2 ^ (f.eb + f.mb)
  let sign (f : Fmt) (x : Nat) : Nat := (x >>> (f.eb + f.mb)) % 2
  let add (m : RMode) (f : Fmt) (x y : Nat) : Nat := f.rnd m ((f.decode x).add m (f.decode y))
  let sub (m : RMode) (f : Fmt) (x y : Nat) : Nat := f.rnd m ((f.decode x).add m (f.decode y).neg)
  let mul (m : RMode) (f : Fmt) (x y : Nat) : Nat := f.rnd m ((f.decode x).mul (f.decode y))
  let low (f : Fmt) (x y : Nat) : Nat := f.rnd .rz (FVal.min (f.decode x) (f.decode y))
  let high (f : Fmt) (x y : Nat) : Nat := f.rnd .rz (FVal.max (f.decode x) (f.decode y))
  let abs (f : Fmt) (x _y : Nat) : Nat := if (f.decode x).isNan then f.nanCode else mag f x
  let neg (f : Fmt) (x _y : Nat) : Nat := if (f.decode x).isNan then f.nanCode else mag f x + (1 - sign f x) * 2 ^ (f.eb + f.mb)
  let csgn (f : Fmt) (x y : Nat) : Nat := if (f.decode x).isNan then f.nanCode else mag f x + sign f y * 2 ^ (f.eb + f.mb)
  Vec2 6 .vfaddF32 (fun m => on32 (add m)) ∧ Vec2 6 .vfsubF32 (fun m => on32 (sub m)) ∧ Vec2 6 .vfmulF32 (fun m => on32 (mul m)) ∧
  Vec2 6 .vfminF32 (fun _ => on32 low) ∧ Vec2 6 .vfmaxF32 (fun _ => on32 high) ∧ Vec1 6 .vfabsF32 (fun _ x => on32 abs x x) ∧
  Vec1 6 .vfnegF32 (fun _ x => on32 neg x x) ∧ Vec2 6 .vfcsgnF32 (fun _ => on32 csgn) ∧
  Vec2 6 .vfaddH2 (fun m => on16 fp16 (add m)) ∧ Vec2 6 .vfsubH2 (fun m => on16 fp16 (sub m)) ∧ Vec2 6 .vfmulH2 (fun m => on16 fp16 (mul m)) ∧
  Vec2 6 .vfminH2 (fun _ => on16 fp16 low) ∧ Vec2 6 .vfmaxH2 (fun _ => on16 fp16 high) ∧ Vec1 6 .vfabsH2 (fun _ x => on16 fp16 abs x x) ∧
  Vec1 6 .vfnegH2 (fun _ x => on16 fp16 neg x x) ∧ Vec2 6 .vfcsgnH2 (fun _ => on16 fp16 csgn) ∧
  Vec2 6 .vfaddBf2 (fun m => on16 bf16 (add m)) ∧ Vec2 6 .vfsubBf2 (fun m => on16 bf16 (sub m)) ∧ Vec2 6 .vfmulBf2 (fun m => on16 bf16 (mul m)) ∧
  Vec2 6 .vfminBf2 (fun _ => on16 bf16 low) ∧ Vec2 6 .vfmaxBf2 (fun _ => on16 bf16 high) ∧ Vec1 6 .vfabsBf2 (fun _ x => on16 bf16 abs x x) ∧
  Vec1 6 .vfnegBf2 (fun _ x => on16 bf16 neg x x) ∧ Vec2 6 .vfcsgnBf2 (fun _ => on16 bf16 csgn)

/-- R22, R26, R28: rounding gives back every code of every format, a canonical NaN, and a zero for a flushed subnormal; no magnitude
of the format lies between a value and its truncation, and every other mode answers the truncated code or the next one. -/
def Obligations.Rounding : Prop :=
  (∀ f ∈ [fp32, fp16, bf16, e4m3, e5m2, e3m2, e2m3, e2m1], ∀ m : RMode, ∀ c < 2 ^ f.width,
    f.rnd m (f.decode c) =
      if (f.decode c).isNan then f.nanCode
      else if f.flush = true ∧ (c >>> f.mb) % 2 ^ f.eb = 0 then (c >>> (f.eb + f.mb)) * 2 ^ (f.eb + f.mb)
      else c) ∧
  (∀ f ∈ [fp32, fp16, e4m3, e5m2, e3m2, e2m3, e2m1], ∀ d : Dy, d.neg = false → d.man ≠ 0 →
    let c := f.rnd .rz (.num d)
    (∃ v, f.decode c = .num v ∧ v.le d = true) ∧
    (c < f.maxCode → ∃ v, f.decode (c + 1) = .num v ∧ d.le v = true ∧ v.le d = false) ∧
    (c < f.maxCode → ∀ m, f.rnd m (.num d) = c ∨ f.rnd m (.num d) = c + 1))

/-- R90: the fused forms round x × y + c, x × y − c and c − x × y once, with c the old element of `vd`; their words; 0 × Inf and
Inf − Inf are NaN, the sign of an exact zero follows R73, and the example of R90, in which only a fused sum is not 0. -/
def Obligations.FusedMultiplyAdd : Prop :=
  let fma (np nc : Bool) (f : Fmt) (m : RMode) (x y c : Nat) : Nat :=
    let p := (f.decode x).mul (f.decode y)
    let c := f.decode c
    f.rnd m ((if np then p.neg else p).add m (if nc then c.neg else c))
  let on16 (f : Fmt) (g : Fmt → RMode → Nat → Nat → Nat → Nat) (m : RMode) (x y c : Word) : Word :=
    BitVec.ofNat 16 (g f m (x.extractLsb' 16 16).toNat (y.extractLsb' 16 16).toNat (c.extractLsb' 16 16).toNat) ++
      BitVec.ofNat 16 (g f m (x.extractLsb' 0 16).toNat (y.extractLsb' 0 16).toNat (c.extractLsb' 0 16).toNat)
  let all (i : BitVec 6 → BitVec 6 → BitVec 6 → BitVec 2 → Instr) (g : Fmt → RMode → Nat → Nat → Nat → Nat) : Prop :=
    VecAcc 6 (fun d a b => i d a b 0) (fun m x y c => BitVec.ofNat 32 (g fp32 m x.toNat y.toNat c.toNat)) ∧
    VecAcc 6 (fun d a b => i d a b 1) (on16 fp16 g) ∧ VecAcc 6 (fun d a b => i d a b 2) (on16 bf16 g)
  all .vffma (fma false false) ∧ all .vffms (fma false true) ∧ all .vfnma (fma true false) ∧
  (∀ f : BitVec 2, f ≠ 3 → DecodesV3 0x19 (f ++ 0#2) (.vffma · · · f) ∧ DecodesV3 0x19 (f ++ 1#2) (.vffms · · · f) ∧
    DecodesV3 0x19 (f ++ 2#2) (.vfnma · · · f)) ∧
  (∀ (w : Word) f o, w.extractLsb' 22 6 = 0x19 → w.extractLsb' 0 4 = f ++ o → (f = 3#2 ∨ o = 3#2) → ∃ e, decodeWord w = .error e) ∧
  (∀ f ∈ [fp32, fp16, bf16], ∀ m a c, fma a c f m (2 ^ (f.eb + f.mb) - 2 ^ f.mb) 0 0 = f.nanCode ∧
    fma a c f m 0 (2 ^ (f.width - 1) + 2 ^ (f.eb + f.mb) - 2 ^ f.mb) 0 = f.nanCode) ∧
  (∀ f ∈ [fp32, fp16, bf16], ∀ m, let inf := 2 ^ (f.eb + f.mb) - 2 ^ f.mb; let one := (2 ^ (f.eb - 1) - 1) * 2 ^ f.mb
    fma false true f m inf one inf = f.nanCode ∧ fma true false f m inf one inf = f.nanCode ∧
    fma false false f m one one (2 ^ (f.width - 1) + one) = if m = .rmi then 2 ^ (f.width - 1) else 0) ∧
  fma false false fp32 .rn 0x3F800001 0x3F7FFFFE 0xBF800000 = 0xA8800000

/-- R91 to R93: float compares into a lane mask, or into halves of ones or zeros; a conversion takes element e, rounds it once to the
destination format (R28, R29), and replaces element e of a narrow destination; the other bits of the lane stay. -/
def Obligations.FloatComparesAndConversions : Prop :=
  (let cond (c : BitVec 2) (x y : FVal) : Bool :=
    if c = 0 then x.numEq y else if c = 1 then x.numLt y else if c = 2 then x.numLt y || x.numEq y else !x.numEq y
  (∀ c : BitVec 2, VecCmp 6 (fun m a b => .vfcmpF32 m a b c) (fun x y => cond c (fp32.decode x.toNat) (fp32.decode y.toNat))) ∧
  (∀ c : BitVec 2, Vec2 6 (fun d a b => .vfcmpPacked d a b 1 c)
    (fun _ => Halves fun x y => if cond c (fp16.decode x.toNat) (fp16.decode y.toNat) then 0xFFFF#16 else 0#16)) ∧
  (∀ c : BitVec 2, Vec2 6 (fun d a b => .vfcmpPacked d a b 2 c)
    (fun _ => Halves fun x y => if cond c (bf16.decode x.toNat) (bf16.decode y.toNat) then 0xFFFF#16 else 0#16)) ∧
  (∀ x y : FVal, (x = .nan ∨ y = .nan) → cond 0 x y = false ∧ cond 1 x y = false ∧ cond 2 x y = false ∧ cond 3 x y = true) ∧
  cond 0 (fp32.decode 0x80000000) (fp32.decode 0) = true) ∧
  (∀ d a, ∀ x y : BitVec 4, ∀ e : BitVec 2, ∀ s,
    let p : VReg × State := s.vsrc 2 a
    let ws := cvtWidth y.toNat
    let wd := cvtWidth x.toNat
    let src (l : Fin 32) : Nat := if ws = 32 then (p.1[l]).toNat else ((p.1[l]).toNat / 2 ^ (ws * e.toNat)) % 2 ^ ws
    let random (l : Fin 32) : Option Nat :=
      if s.pfx.r = 5 then some (((keyed (s.VD s.pfx.v.toNat l) (32 * e.toNat + l.val)).extractLsb' 32 16).toNat) else none
    let res (l : Fin 32) : Nat := cvtRound x.toNat s.mode (random l) (cvtValue y.toNat (src l))
    ∃ r : VReg,
      (∀ l i : Fin 32, (r[l]).getLsbD i =
        if wd = 32 then (res l).testBit i
        else if wd * e.toNat ≤ i.val ∧ i.val < wd * e.toNat + wd then (res l).testBit (i.val - wd * e.toNat)
        else ((s.V d.toNat)[l]).getLsbD i) ∧
      Gives (.vcvt d a x y e) s p.2 (some 8) [s.vW d.toNat r])

/-- R94: each of the nine special functions gives one fixed result for each input, whatever the mode but for the reciprocal and the root.
Those two are the rounding under the mode of the exact 1/x and √x: n with more than 32 bits is the exact value in units of a power of two,
or the exact value lies strictly between n and n + 1, and then rounds as their middle does. The other seven keep their error bounds, in
units of the last place of the value or absolute, where `specialReal` is the model's value of the function to more than 40 bits. The
special inputs are the table's, `vfexp2` of an integer is exact down to 2^−149, and `vflog2` of 1 is +0.
The model's choices here: assumption 9. -/
def Obligations.SpecialFunctions : Prop :=
  ∃ F : Nat → RMode → Word → Word,
    Vec1 16 .vfrcp (F 0) ∧ Vec1 16 .vfrsq (F 1) ∧ Vec1 16 .vfsqrt (F 2) ∧ Vec1 16 .vfexp2 (F 3) ∧ Vec1 16 .vflog2 (F 4) ∧
    Vec1 16 .vfsin (F 5) ∧ Vec1 16 .vfcos (F 6) ∧ Vec1 16 .vftanh (F 7) ∧ Vec1 16 .vfsigm (F 8) ∧
    (∀ fn ≤ 8, ∀ m x, fp32.decode x.toNat = .nan → F fn m x = 0x7FC00000#32) ∧
    (∀ fn ≤ 8, fn ≠ 0 → fn ≠ 2 → ∀ m m' x, F fn m x = F fn m' x) ∧
    (∀ m, F 0 m 0 = 0x7F800000#32 ∧ F 0 m 0x80000000#32 = 0xFF800000#32 ∧ F 0 m 0x7F800000#32 = 0 ∧ F 0 m 0xFF800000#32 = 0x80000000#32 ∧
      F 1 m 0 = 0x7F800000#32 ∧ F 1 m 0x80000000#32 = 0xFF800000#32 ∧ F 1 m 0x7F800000#32 = 0 ∧ F 1 m 0xFF800000#32 = 0x7FC00000#32 ∧
      F 2 m 0 = 0 ∧ F 2 m 0x80000000#32 = 0x80000000#32 ∧ F 2 m 0x7F800000#32 = 0x7F800000#32 ∧ F 2 m 0xFF800000#32 = 0x7FC00000#32 ∧
      F 3 m 0xFF800000#32 = 0 ∧ F 3 m 0x7F800000#32 = 0x7F800000#32 ∧
      F 4 m 0 = 0xFF800000#32 ∧ F 4 m 0x80000000#32 = 0xFF800000#32 ∧ F 4 m 0x3F800000#32 = 0 ∧ F 4 m 0x7F800000#32 = 0x7F800000#32 ∧
      F 4 m 0xFF800000#32 = 0x7FC00000#32 ∧
      F 5 m 0 = 0 ∧ F 5 m 0x80000000#32 = 0x80000000#32 ∧ F 5 m 0x7F800000#32 = 0x7FC00000#32 ∧ F 5 m 0xFF800000#32 = 0x7FC00000#32 ∧
      F 6 m 0x7F800000#32 = 0x7FC00000#32 ∧ F 6 m 0xFF800000#32 = 0x7FC00000#32 ∧
      F 7 m 0 = 0 ∧ F 7 m 0x80000000#32 = 0x80000000#32 ∧ F 7 m 0x7F800000#32 = 0x3F800000#32 ∧ F 7 m 0xFF800000#32 = 0xBF800000#32 ∧
      F 8 m 0xFF800000#32 = 0 ∧ F 8 m 0x7F800000#32 = 0x3F800000#32) ∧
    (∀ m, ∀ x : Word, x.getLsbD 31 = true → (∃ d, fp32.decode x.toNat = .num d ∧ d.man ≠ 0) →
      F 1 m x = 0x7FC00000#32 ∧ F 2 m x = 0x7FC00000#32 ∧ F 4 m x = 0x7FC00000#32) ∧
    (∀ m, ∀ x : Word, ∀ d, fp32.decode x.toNat = .num d → d.man ≠ 0 →
      let rounded (neg : Bool) (n : Nat) (e : Int) : Word := BitVec.ofNat 32 (fp32.rnd m (.num ⟨neg, n, e⟩))
      (∃ n k : Nat, 2 ^ 32 ≤ n ∧
        ((n * d.man = 2 ^ k ∧ F 0 m x = rounded d.neg n (-(k : Int) - d.exp)) ∨
         (n * d.man < 2 ^ k ∧ 2 ^ k < (n + 1) * d.man ∧ F 0 m x = rounded d.neg (2 * n + 1) (-(k : Int) - d.exp - 1)))) ∧
      (d.neg = false → ∃ (n k : Nat) (e : Int), 2 ^ 32 ≤ n ∧ d.exp = 2 * e + k ∧
        ((n * n = d.man * 2 ^ k ∧ F 2 m x = rounded false n e) ∨
         (n * n < d.man * 2 ^ k ∧ d.man * 2 ^ k < (n + 1) * (n + 1) ∧ F 2 m x = rounded false (2 * n + 1) (e - 1))))) ∧
    (∀ m, ∀ x : Word, ∀ d, fp32.decode x.toNat = .num d →
      (∀ n : Int, -149 ≤ n → n ≤ 127 → d.eqv ⟨decide (n < 0), n.natAbs, 0⟩ = true →
        ∃ v, fp32.decode (F 3 m x).toNat = .num v ∧ v.eqv ⟨false, 1, n⟩ = true) ∧
      (Dy.le ⟨false, 128, 0⟩ d = true → F 3 m x = 0x7F800000#32)) ∧
    (∀ fn ∈ [1, 3, 4, 5, 6, 7, 8], ∀ m, ∀ x : Word, ∀ d, fp32.decode x.toNat = .num d → (fn = 6 ∨ fn = 8 ∨ d.man ≠ 0) →
      (fn = 1 ∨ fn = 4 → d.neg = false) → (fn = 3 → Dy.le ⟨false, 128, 0⟩ d = false) →
      let t := specialReal fn d
      let ulp : Int := max (t.log2 - 23) (-149)
      ∃ v, fp32.decode (F fn m x).toNat = .num v ∧
        let off (b : Dy) : Prop := Dy.le { Dy.add .rn v { t with neg := !t.neg } with neg := false } b = true
        (fn = 1 → off ⟨false, 1, ulp⟩) ∧ (fn = 3 ∨ fn = 7 ∨ fn = 8 → off ⟨false, 2, ulp⟩) ∧ (fn = 5 ∨ fn = 6 → off ⟨false, 1, -22⟩) ∧
        (fn = 4 → off ⟨false, 2, ulp⟩ ∨ (Dy.le ⟨false, 1, -1⟩ d = true ∧ Dy.le d ⟨false, 2, 0⟩ = true ∧ off ⟨false, 1, -22⟩)))

/-- R95 to R100: rotation, keyed sign flips, the largest magnitude, and MX quantisation with its layout. -/
def Obligations.RotationAndQuantisation : Prop :=
  (∀ d a s,
    let p : VReg × State := s.vsrc 2 a
    let x (j : Fin 32) : FVal := if s.E.getLsbD j then fp32.decode (p.1[j]).toNat else .num ⟨false, 0, 0⟩
    let odd (i j : Fin 32) : Bool := ((List.range 5).filter fun k => (i.val.testBit k && j.val.testBit k)).length % 2 == 1
    let y (i : Fin 32) : FVal := (FVal.sum s.mode ((List.finRange 32).map fun j => if odd i j then (x j).neg else x j)).getD .nan
    Gives (.vhad d a) s p.2 (some 8) [s.vW d.toNat (Vector.ofFn fun i => BitVec.ofNat 32 (fp32.rnd s.mode (y i)))]) ∧
  (∀ d a, ∀ b : BitVec 7, ∀ s,
    let p : VReg × State := s.vsrc 2 a
    Gives (.vkflip d a b) s p.2 (some 8) [s.vW d.toNat (Vector.ofFn fun l =>
      if (fp32.decode (p.1[l]).toNat).isNan then 0x7FC00000#32
      else if (keyed (s.UD b.toNat) l.val).getLsbD 63 then p.1[l] ^^^ 0x80000000#32 else p.1[l])]) ∧
  (∀ d a s,
    let p : VReg × State := s.vsrc 2 a
    ∃ r : Word,
      (∀ l : Fin 32, s.E.getLsbD l = true → (fp32.decode (p.1[l]).toNat).isNan = true → r = 0x7FC00000#32) ∧
      ((∀ l : Fin 32, s.E.getLsbD l = true → (fp32.decode (p.1[l]).toNat).isNan = false) →
        (∀ l : Fin 32, s.E.getLsbD l = true → (p.1[l]).extractLsb' 0 31 ≤ r.extractLsb' 0 31) ∧
        (r = 0 ∨ ∃ l : Fin 32, s.E.getLsbD l = true ∧ r = ((p.1[l]).extractLsb' 0 31).setWidth 32)) ∧
      Gives (.vamax d a) s p.2 (some 8) [s.vW d.toNat (splat r)]) ∧
  (∀ d a, ∀ e : BitVec 7, e.toNat ≤ 4 → ∀ s,
    let p : VReg × State := s.vsrc 2 a
    let w := if e.toNat ≤ 1 then 8 else if e.toNat ≤ 3 then 6 else 4
    let xs := (List.finRange 32).map fun j => if s.E.getLsbD j then fp32.decode (p.1[j]).toNat else .num ⟨false, 0, 0⟩
    let seed (i : Nat) : DWord := if h : i < 32 then s.VD s.pfx.v.toNat ⟨i, h⟩ else 0
    let q := mxQuant e.toNat s.mode (if s.pfx.r = 5 then some fun i => ((keyed (seed i) i).extractLsb' 32 16).toNat else none) xs
    ∃ r : VReg,
      (∀ l i : Fin 32, l.val < 31 → (r[l]).getLsbD i = q.1.testBit (32 * l.val + i.val)) ∧ q.1 < 2 ^ (32 * w) ∧
      (r[31]).toNat = q.2 % 256 + 256 * (255 - q.2 % 256) ∧
      Gives (.vqmx d a e) s p.2 (some 8) [s.vW d.toNat r]) ∧
  (∀ d a, ∀ e : BitVec 7, ∀ f, mxFmt e.toNat = some f → ∀ s,
    let p : VReg × State := s.vsrc 2 a
    let codes : Nat := ((List.range 8).map fun k => ((p.1[k]?.getD 0).toNat) * 2 ^ (32 * k)).sum
    let sc : Nat := ((p.1[31]).extractLsb' 0 8).toNat
    let elt (l : Nat) : FVal :=
      match f.decode ((codes / 2 ^ (f.width * l)) % 2 ^ f.width) with
      | .num v => .num { v with exp := v.exp + ((sc : Int) - 127) }
      | x => x
    Gives (.vdqmx d a e) s p.2 (some 8) [s.vW d.toNat (Vector.ofFn fun l =>
      if (p.1[31]).extractLsb' 8 8 ≠ ~~~(p.1[31]).extractLsb' 0 8 ∨ sc = 255 then 0x7FC00000#32
      else BitVec.ofNat 32 (fp32.rnd s.mode (elt l.val)))])

/-- R101, R104: shuffles, whose source lane is read whether or not it is in E; a lane read into a uniform register or pair, and a
uniform value written to the lanes of E. -/
def Obligations.ShufflesAndLanes : Prop :=
  ((∀ d a b s,
    let p : VReg × VReg × State := s.vsrc2 a b
    Gives (.vshflIdx d a b) s p.2.2 (some 8) [s.vW d.toNat (Vector.ofFn fun l => p.1[((p.2.1[l]).extractLsb' 0 5).toFin])]) ∧
  (∀ d a, ∀ n : BitVec 5, ∀ s,
    let p : VReg × State := s.vsrc 2 a
    let from_ (f : Nat → Nat) : List Write := [s.vW d.toNat (Vector.ofFn fun l => p.1[f l.val]?.getD 0)]
    Gives (.vshflXor d a n) s p.2 (some 8) (from_ fun l => l ^^^ n.toNat) ∧
    Gives (.vshflUp d a n) s p.2 (some 8) (from_ fun l => if n.toNat ≤ l then l - n.toNat else l) ∧
    Gives (.vshflDn d a n) s p.2 (some 8) (from_ fun l => if l + n.toNat ≤ 31 then l + n.toNat else l)) ∧
  (∀ d a b s,
    let p : VReg × VReg × State := s.vsrc2 a b
    let half (t : BitVec 6) : BitVec 16 := (p.1[(t.extractLsb' 1 5).toFin]).extractLsb' (if t.getLsbD 0 then 16 else 0) 16
    Gives (.vshflIdxH2 d a b) s p.2.2 (some 8)
      [s.vW d.toNat (Vector.ofFn fun l => half ((p.2.1[l]).extractLsb' 16 6) ++ half ((p.2.1[l]).extractLsb' 0 6))])) ∧
  (∀ d a, ∀ b : BitVec 7, ∀ s,
    let p : VReg × State := s.vsrc 2 a
    let n := ((s.U b.toNat).extractLsb' 0 5).toFin
    Gives (.vrdl d a b) s p.2 (some 8) [uW d.toNat p.1[n]] ∧
    Gives (.vrdlD d a b) s s (some 8) (uPair d.toNat ((s.V (a.toNat + 1))[n] ++ (s.V a.toNat)[n])) ∧
    Gives (.vwrl d b) s s (some 8) [s.vW d.toNat (splat (s.U b.toNat))] ∧
    Gives (.vwrlD d b) s s (some 8) [s.vW d.toNat (splat (s.U b.toNat)), s.vW (d.toNat + 1) (splat (s.U (b.toNat + 1)))])

/-- R102, R103: match, ballot and lane rank; reductions and scans over the lanes of E in increasing order, results after sixteen
cycles (R48). -/
def Obligations.MatchesAndReductions : Prop :=
  (∀ d a s,
    let p : VReg × State := s.vsrc 2 a
    let e (m : Fin 32) : Bool := s.E.getLsbD m
    (∃ r : VReg, (∀ l m : Fin 32, (r[l]).getLsbD m = (e m && decide (p.1[m] = p.1[l]))) ∧ Gives (.vmatch d a) s p.2 (some 8) [s.zW d.toNat r]) ∧
    (∃ r : VReg, (∀ l m : Fin 32, (r[l]).getLsbD m = (e m && (fp32.decode (p.1[m]).toNat).numEq (fp32.decode (p.1[l]).toNat))) ∧
      Gives (.vmatchNum d a) s p.2 (some 8) [s.zW d.toNat r]) ∧
    (∃ r : Word, (∀ m : Fin 32, r.getLsbD m = (e m && decide (p.1[m] ≠ 0))) ∧ Gives (.vballot d a) s p.2 (some 8) [s.zW d.toNat (splat r)]) ∧
    Gives (.vlaneid d) s s (some 8) [s.vW d.toNat (Vector.ofFn fun l =>
      BitVec.ofNat 32 ((List.finRange 32).filter fun m => decide (m < l) && e m).length)]) ∧
  (∀ d a s,
    let p : VReg × State := s.vsrc 2 a
    let upTo (k : Nat) : List Word := ((List.finRange 32).filter fun m => s.E.getLsbD m && decide (m.val < k)).map fun m => p.1[m]
    let sumI (l : List Word) : Word := l.foldl (· + ·) 0
    let sumF (l : List Word) : Word :=
      BitVec.ofNat 32 (fp32.rnd s.mode ((FVal.sum s.mode (l.map fun x => fp32.decode x.toNat)).getD (.num ⟨false, 0, 0⟩)))
    let one (i : Instr) (r : Word) : Prop := Gives i s p.2 (some 16) [s.vW d.toNat (splat r)]
    let best (i : Instr) (le : Word → Word → Prop) : Prop :=
      ∃ r, (upTo 32 ≠ [] → r ∈ upTo 32 ∧ ∀ x ∈ upTo 32, le x r) ∧ one i r
    let foldF (i : Instr) (f : FVal → FVal → FVal) : Prop :=
      ∀ y l, upTo 32 = y :: l → one i (BitVec.ofNat 32 (fp32.rnd .rz (l.foldl (fun v x => f v (fp32.decode x.toNat)) (fp32.decode y.toNat))))
    one (.vredsumI32 d a) (sumI (upTo 32)) ∧ one (.vredsumF32 d a) (sumF (upTo 32)) ∧
    best (.vredmaxI32 d a) (fun x r => x.toInt ≤ r.toInt) ∧ best (.vredmaxN32 d a) (fun x r => x.toNat ≤ r.toNat) ∧
    best (.vredminI32 d a) (fun x r => r.toInt ≤ x.toInt) ∧ best (.vredminN32 d a) (fun x r => r.toNat ≤ x.toNat) ∧
    foldF (.vredmaxF32 d a) FVal.max ∧ foldF (.vredminF32 d a) FVal.min ∧
    (upTo 32 = [] → ∃ r, one (.vredmaxF32 d a) r ∧ one (.vredminF32 d a) r) ∧
    Gives (.vscanI32 d a) s p.2 (some 16) [s.vW d.toNat (Vector.ofFn fun l => sumI (upTo (l.val + 1)))] ∧
    Gives (.vscanF32 d a) s p.2 (some 16) [s.vW d.toNat (Vector.ofFn fun l => sumF (upTo (l.val + 1)))] ∧
    Gives (.vscanExI32 d a) s p.2 (some 16) [s.vW d.toNat (Vector.ofFn fun l => sumI (upTo l.val))] ∧
    Gives (.vscanExF32 d a) s p.2 (some 16) [s.vW d.toNat (Vector.ofFn fun l => sumF (upTo l.val))])
/-! ## Special registers, privilege and traps -/

/-- R14, R20, R21, R79, R80, R203: what each special register reads as; a read arrives at its own time (VAR, R48). A user's write to
`sig` waits for the next run, and a write to `qN` is seen in the next cycle and keeps 48 bits.
The model's choices here: assumptions 7, 28, and for `ctx` and `waitshare` in a handler warp, which has no block (slot 4), 80. -/
def Obligations.SpecialRegisters : Prop :=
  (∃ sp : State → Nat → DWord,
    (∀ s, sp s 0x01 = BitVec.ofNat 64 s.warp.key.rank ∧ sp s 0x02 = BitVec.ofNat 64 s.issue.sp ∧ sp s 0x03 = BitVec.ofNat 64 s.core.id ∧
      sp s 0x06 = BitVec.ofNat 64 (((s.fab.map[s.core.id]?).getD 0) / 36) ∧ sp s 0x07 = BitVec.ofNat 64 (if s.blk.slot < 4 then s.blk.slot else ((s.warp.served.map (·.key.slot)).getD 0) % 4) ∧ sp s 0x08 = s.warp.name ∧
      sp s 0x09 = (s.warp.splitAt s.issue.sp).sig.setWidth 64 ∧ sp s 0x0A = (s.warp.splitAt s.issue.sp).region ∧
      sp s 0x0B = BitVec.ofNat 64 s.warp.wbase ∧ sp s 0x0C = BitVec.ofNat 64 (s.warp.links.countP fun l => !l.out) ∧
      sp s 0x0D = BitVec.ofNat 64 s.warp.wlimit ∧ sp s 0x0E = s.core.accown.setWidth 64 ∧ sp s 0x0F = BitVec.ofNat 64 (if s.blk.slot < 4 then s.blk.waitshare else s.warp.hshare) ∧
      sp s 0x10 = BitVec.ofNat 64 (s.time19 / 19) ∧ sp s 0x11 = s.warp.nfault.setWidth 64 ∧ sp s 0x12 = s.warp.ncont ∧
      ∀ k < 4, sp s (0x14 + k) = (s.warp.q[k]?).getD 0) ∧
    (∀ s, ∃ lc, sp s 0x04 = BitVec.ofNat 64 lc ∧ sp s 0x05 = BitVec.ofNat 64 (s.fab.csize lc) ∧ lc = s.fab.clusterOf s.core.id) ∧
    (∀ d r s, Gives (.srd d r) s s none [uW d.toNat ((sp s r.toNat).setWidth 32)] ∧ Gives (.srdD d r) s s none (uPair d.toNat (sp s r.toNat)) ∧
      (s.warp.level = .firmware →
        Gives (.psrd d r) s s none [uW d.toNat ((sp s r.toNat).setWidth 32)] ∧ Gives (.psrdD d r) s s none (uPair d.toNat (sp s r.toNat)))) ∧
    (∀ v s, Gives (.srdV v) s s none
      [⟨s.warp.vdest v.toNat, (s.warp.splitAt s.issue.sp).mask, Vector.ofFn fun l => BitVec.ofNat 32 l.val⟩])) ∧
  ((∀ a s, exec (.swr 9 a) s = .next { s with
    issue := { s.issue with pfx := none }
    warp := s.warp.setSplit s.issue.sp { s.warp.splitAt s.issue.sp with
      late := (s.warp.splitAt s.issue.sp).late ++ [(9, (s.U a.toNat).setWidth 64)] } }) ∧
  (∀ a s, ∀ k < 4, ∃ v : VReg, v[0] = s.U a.toNat ∧ v[1] = s.U (a.toNat + 1) ∧
    Gives (.swrD (BitVec.ofNat 7 (0x14 + k)) a) s s (some 1) [⟨.q k, allLanes, v⟩]) ∧
  (∀ (w : Warp) (k : Nat) (v : VReg), k < 4 → (w.writeDest (.q k) allLanes v).q[k]? = some ((v[1].extractLsb' 0 16 ++ v[0]).setWidth 64)))

/-- R20, R21, R203, R293: firmware's writes. `name`, `wlimit`, `waitshare`, `time`, `nfault` and `ncont` are written at once;
`region`, `wbase` and `wdepth` wait for the next run, the last two also for a racking transfer in flight; `accown` frees the
accumulator store for its new owner. `time` does not go backwards.
The model's choices here: assumptions 7, 18, 54, 80. -/
def Obligations.FirmwareSpecialWrites : Prop :=
  ∀ s, s.warp.level = .firmware → ∀ a : BitVec 7,
    let o : State := { s with issue := { s.issue with pfx := none } }
    let later (n : Nat) (v : DWord) : State := { o with
      warp := s.warp.setSplit s.issue.sp { s.warp.splitAt s.issue.sp with late := (s.warp.splitAt s.issue.sp).late ++ [(n, v)] } }
    let low : Word := s.U a.toNat
    let pair : DWord := s.UD a.toNat
    exec (.pswrD 0x08 a) s = .next { o with warp := { s.warp with name := pair } } ∧
    exec (.pswrD 0x0A a) s = .next (later 0x0A pair) ∧
    exec (.pswrD 0x10 a) s = .next { o with time19 := max s.time19 (pair.toNat * 19) } ∧
    exec (.pswrD 0x12 a) s = .next { o with warp := { s.warp with ncont := pair } } ∧
    exec (.pswr 0x09 a) s = .next (later 0x09 (low.setWidth 64)) ∧
    (s.warp.rack = none → s.warp.rackNext = none → exec (.pswr 0x0B a) s = .next (later 0x0B (low.setWidth 64)) ∧ exec (.pswr 0x0C a) s = .next (later 0x0C (low.setWidth 64))) ∧
    ((s.warp.rack.isSome = true ∨ s.warp.rackNext.isSome = true) → ∀ n : BitVec 7, n = 0x0B ∨ n = 0x0C → ∃ t, exec (.pswr n a) s = .next t ∧
      t.issue.ended = some (.waiting .retry) ∧ t.warp = s.warp.setSplit s.issue.sp { s.warp.splitAt s.issue.sp with wait := some .retry }) ∧
    exec (.pswr 0x0D a) s = .next { o with warp := { s.warp with wlimit := low.toNat } } ∧
    (s.blk.slot < 4 → exec (.pswr 0x0F a) s = .next { o with blk := { s.blk with waitshare := low.toNat % 128 } }) ∧
    (4 ≤ s.blk.slot → exec (.pswr 0x0F a) s = .next { o with warp := { s.warp with hshare := low.toNat % 128 } }) ∧
    exec (.pswr 0x11 a) s = .next { o with warp := { s.warp with nfault := low.extractLsb' 0 8 } } ∧
    (∃ t, exec (.pswr 0x0E a) s = .next t ∧ t.core = { s.core with accown := low.extractLsb' 0 3, accBusy := false } ∧
      t.warp = s.warp ∧ t.mem = s.mem ∧ t.ctx = s.ctx ∧
      ∀ b, low.getLsbD 2 = true → t.getBlk s.core.id (low.toNat % 4) = some b → b.fresh = false) ∧
    (∀ k < 4, ∃ v : VReg, v[0] = low ∧ v[1] = s.U (a.toNat + 1) ∧
      Gives (.pswrD (BitVec.ofNat 7 (0x14 + k)) a) s s (some 1) [⟨.q k, allLanes, v⟩])

/-- R58, R194: a privileged word outside the firmware level has no effect of its own and raises the illegal-instruction trap
with cause 2 at its slot. -/
def Obligations.PrivilegedWordsTrap : Prop :=
  ∀ s, s.warp.level ≠ .firmware → ∀ (a b : BitVec 7) (p : BitVec 2) (q : BitVec 3) (c : BitVec 6) (n : BitVec 10),
    ∀ i ∈ ([.rte, .hbcast, .drain a b, .wsnap a b p, .accspl c n, .accfil c n, .mapset a q, .tlbinv a q, .psrd a b, .psrdD a b, .pswr a b,
      .pswrD a b] : List Instr),
      exec i s = .next (takeTrap (.illegal 2 s.issue.slot) s)

/-- R334, R335, R193, R356: a recorded trap at user level. The warp halts, its split stands at the resume address (the packet, or
the packet after it for `trap` and `brk`, and after the transferring instruction for cause 10), and the 64 bytes of its record are written under key 0 at AREA + 64 × (65 × (4 ×
core + slot) + warp slot).
The model's choices here: assumptions 24, 36, 53. -/
def Obligations.TrapRecord : Prop :=
  ∀ (t : Trap) s, s.warp.level = .user → s.ctx.halted = false → cellsWf s.mem = true →
    (match t with | .miss .. => False | .undersized => False | .signature => False | .poison .. => False | .accFirstUse => False | _ => True) →
    let u := takeTrap t s
    let code := match t with
      | .user _ => 1 | .brk _ => 2 | .illegal .. => 3 | .reconvOverflow => 4 | .barrierDivergence => 5 | .resourceRange => 6 | .operandFormat => 7
      | .address _ => 8 | .protect .. => 8 | .engine _ => 8 | .windowOverflow => 9 | .dqUnderflow => 12 | _ => 0
    let detail := match t with
      | .user i => i.toNat | .brk i => i.toNat | .illegal c slot => c * 256 + slot | .address va => va.toNat | .protect va .. => va.toNat
      | .engine va => va.toNat | _ => 0
    let resume : DWord := match t with
      | .user _ => s.nextPacket | .brk _ => s.nextPacket | .illegal 10 _ => if s.issue.next ≥ 3 then s.issue.pkt + 12 else s.issue.pkt
      | _ => s.issue.pkt
    let slot := match t with
      | .illegal 10 _ => if s.issue.next ≥ 3 then 0 else s.issue.next | _ => 0
    let hasHandler := ((s.getCtx s.ctx.id).map (·.handler)).getD false
    let fatal := if code = 7 ∨ code = 8 ∨ code = 9 then true else !hasHandler
    let addr := s.fu.area + 64 * (65 * (4 * s.blk.core + s.blk.slot) + s.warp.wslot)
    u.readMem 0 addr 64 = leBytes 2 code ++ leBytes 2 s.ctx.id ++ leBytes 2 s.blk.core ++ leBytes 1 s.warp.wslot ++ leBytes 1 (if fatal then 1 else 0) ++
      leBytes 8 s.issue.pkt.toNat ++ leBytes 8 resume.toNat ++ leBytes 8 detail ++ leBytes 32 0 ∧
    u.warp = { (s.warp.setSplit s.issue.sp { s.warp.splitAt s.issue.sp with
      pc := resume, slot := slot, runLen := 0, wait := none, ptrap := none, begun := 0 }) with halted := true } ∧
    u.issue.ended = some (.trapped t) ∧
    (u.getCore s.blk.core).records = (s.getCore s.blk.core).records ++ [⟨addr, s.warp.key, s.issue.sp, false, code, s.ctx.id, fatal⟩] ∧
    u.blk = s.blk ∧ u.cellar = s.cellar ∧ u.clock = s.clock ∧ u.names = s.names ∧ u.ops = s.ops

/-- R293: the first-use trap of an accumulator word: the record's cause is 10, the core's accumulator accesses wait for the
handler, and the word is taken again from its packet.
The model's choices here: assumptions 24, 69. -/
def Obligations.FirstUseTrap : Prop :=
  ∀ s, s.warp.level = .user → s.ctx.halted = false → cellsWf s.mem = true → s.blk.slot < 4 →
    let u := takeTrap .accFirstUse s
    let addr := s.fu.area + 64 * (65 * (4 * s.blk.core + s.blk.slot) + s.warp.wslot)
    u.rdN addr 2 = 10 ∧ u.rdN (addr + 7) 1 % 2 = 0 ∧ u.rdN (addr + 7) 1 / 2 % 2 = (if s.blk.fresh then 1 else 0) ∧
    u.rdN (addr + 24) 4 = s.blk.slot + 256 * (s.core.accown.toNat % 4) ∧
    (s.core.id = s.blk.core → s.active = true → u.core.accBusy = true ∧ u.core.accown = s.core.accown) ∧
    (u.warp.splitAt s.issue.sp).pc = (if s.issue.sp < 4 then s.issue.pkt else 0) ∧ u.warp.halted = true

/-- R221, R297, R199: a page that is not present sends the split back to its region entry with its saved signature, to wait for its
page, and raises a record with a new token; a fault of the firmware handler goes on at NCONT and counts in NFAULT, modulo 256, and but for
an integrity event, which is logged, nothing else is written.
The model's choices here: assumptions 24, 73, 79. -/
def Obligations.MissesAndNestedFaults : Prop :=
  (∀ va access s, s.warp.level ≠ .firmware → s.issue.sp < 4 →
    let u := takeTrap (.miss va 0 access) s
    let p := s.warp.splitAt s.issue.sp
    let q := u.warp.splitAt s.issue.sp
    q.pc = p.region ∧ q.sig = p.saved ∧ q.slot = 0 ∧ q.wait = some (.service s.nextId) ∧ q.mask = p.mask ∧
    (∃ r ∈ u.fu.recs, r.token = s.nextId ∧ r.ctx = s.ctx.id ∧ r.core = s.core.id ∧ r.kind = 0 ∧ r.access = access ∧ r.va = va ∧
      r.who = some (.split s.warp.key s.issue.sp) ∧ r.written = false) ∧
    u.warp.sregs = s.warp.sregs ∧ u.warp.vfix = s.warp.vfix ∧ u.warp.ring = s.warp.ring ∧ u.warp.preds = s.warp.preds ∧ u.warp.masks = s.warp.masks ∧
    u.mem = s.mem ∧ u.cellar = s.cellar ∧ u.blk = s.blk ∧ u.core = s.core ∧ u.ctx = s.ctx ∧ u.ops = s.ops) ∧
  (∀ t s, s.warp.level = .firmware → s.warp.ncont ≠ 0 → s.warp.ncont.toNat % 12 = 0 → s.issue.sp < 4 →
    let u := takeTrap t s
    (u.warp.splitAt s.issue.sp).pc = s.warp.ncont ∧ u.warp.nfault = s.warp.nfault + 1 ∧ u.warp.ncont = s.warp.ncont ∧
    u.warp.sregs = s.warp.sregs ∧ u.core = s.core ∧ u.ctx = s.ctx ∧
    (t ≠ .signature → (∀ tile row, t ≠ .poison tile row) → u.mem = s.mem ∧ u.fu = s.fu))

/-- R138, R328, R329: `sig` folds a word by rotating and XOR; `sigck` compares the folded halves and clears `sig`; a mismatch
replays the region the first time, and the second time the warp is lost, or its handler's record goes to the firmware; each is logged. -/
def Obligations.ControlFlowSignature : Prop :=
  (∀ sig w : Word, foldSig sig w = (sig.extractLsb' 0 25 ++ sig.extractLsb' 25 7) ^^^ w ∧ unfoldSig (foldSig sig w) w = sig) ∧
  (∀ i s, let p := s.warp.splitAt s.issue.sp
    (p.sig.extractLsb' 16 16 ^^^ p.sig.extractLsb' 0 16 = i →
      exec (.sigck i) s = .next { s with issue := { s.issue with pfx := none }, warp := s.warp.setSplit s.issue.sp { p with sig := 0, folded := [] } }) ∧
    (p.sig.extractLsb' 16 16 ^^^ p.sig.extractLsb' 0 16 ≠ i → exec (.sigck i) s = .next (takeTrap .signature s))) ∧
  (∀ s, s.warp.level = .user → s.issue.sp < 4 → (s.warp.splitAt s.issue.sp).mism = false →
    let q := (takeTrap .signature s).warp.splitAt s.issue.sp
    q.mism = true ∧ q.pc = (s.warp.splitAt s.issue.sp).region ∧ q.sig = (s.warp.splitAt s.issue.sp).saved ∧ q.slot = 0 ∧
      (takeTrap .signature s).fu.errNext = s.fu.errNext + if s.fu.errLen = 0 then 0 else 1) ∧
  (∀ s, s.active = true → s.issue.sp < 4 → (s.warp.splitAt s.issue.sp).mism = true → let u := takeTrap .signature s
    (s.warp.level = .user → s.ctx.halted = false → u.fu.errNext = s.fu.errNext + (if s.fu.errLen = 0 then 0 else 1) ∧
      ∀ w, u.getWarp s.warp.key = some w → w.exited = true ∧ w.halted = false ∧ ∀ j < 4, (w.splitAt j).st = .free) ∧
    (s.warp.level = .handler → ∀ v, s.core.handling = some v → (u.getCore s.core.id).handling = none ∧
      (u.getCore s.core.id).records = { v with firmware := true } :: s.core.records ∧ ∀ w ∈ u.warps, w.key ≠ ⟨s.core.id, 4, 0⟩))

/-! ## Memory -/

/-- R106: the three spaces and the address fault. An access is aligned to its size; a scratchpad offset lies in the partition
of a block that the context holds; a cellar offset lies in the context's allocation.
The model's choices here: assumption 25. -/
def Obligations.AddressSpaces : Prop :=
  ∀ (s : State) (a : Access) (va : DWord) (sz : Nat), sz ∈ [1, 2, 4, 8, 64, 128] →
    let fault : Res Place := .error (.trap (.address va))
    let v := va.toNat
    let x := v - 0xFFFFF00000000000
    let y := v - 0xFFFFE00000000000
    (v % sz ≠ 0 → place s a va sz = fault) ∧
    (v % sz = 0 →
      (v < 2 ^ 57 → place s a va sz = (translate s s.ctx.root a v).map fun r => .mem r.1 r.2) ∧
      (0xFFFFF00000000000 ≤ v → v < 0xFFFFF00000000000 + 2 ^ 32 →
        let off := x % 2 ^ 21
        let c := x / 2 ^ 24 - 1
        let m := x / 2 ^ 21 % 4
        (x / 2 ^ 23 % 2 = 1 → place s a va sz = fault) ∧
        (x / 2 ^ 23 % 2 = 0 → x / 2 ^ 24 = 0 →
          place s a va sz = if off + sz ≤ s.blk.part then .ok (.scratch s.blk.core s.blk.slot off) else fault) ∧
        (x / 2 ^ 23 % 2 = 0 → x / 2 ^ 24 ≠ 0 → (179 < c ∨ s.fab.csize c ≤ m) → place s a va sz = fault) ∧
        (x / 2 ^ 23 % 2 = 0 → x / 2 ^ 24 ≠ 0 → c ≤ 179 → m < s.fab.csize c → s.saved = [] →
          let core := s.fab.clusterBase c + m
          (∀ b ∈ s.allBlks, b.core = core → b.ctx = s.ctx.id → b.life ≠ .resident) → place s a va sz = fault) ∧
        (x / 2 ^ 23 % 2 = 0 → x / 2 ^ 24 ≠ 0 → c ≤ 179 → m < s.fab.csize c →
          let core := s.fab.clusterBase c + m
          ∀ b ∈ s.allBlks, b.core = core → b.ctx = s.ctx.id → b.life = .resident →
            (∀ b1 ∈ s.allBlks, b1.core = core → b1.ctx = s.ctx.id → b1.life = .resident → b1.slot = b.slot) → s.getBlk core b.slot = some b →
            place s a va sz = if off + sz ≤ b.part then .ok (.scratch core b.slot off) else fault)) ∧
      (0xFFFFE00000000000 ≤ v → v < 0xFFFFE00000000000 + 2 ^ 26 →
        place s a va sz = if s.ctx.cbase ≤ y ∧ y + sz ≤ s.ctx.cbase + s.ctx.csize then .ok (.cellar y) else fault) ∧
      (2 ^ 57 ≤ v → (v < 0xFFFFE00000000000 ∨ 0xFFFFE00000000000 + 2 ^ 26 ≤ v) → (v < 0xFFFFF00000000000 ∨ 0xFFFFF00000000000 + 2 ^ 32 ≤ v) →
        place s a va sz = fault))

/-- R295, R296: four levels of tables, a leaf of 4 KiB, 2 MiB or 1 GiB, the key it gives, and the three failures. A cached translation
that covers the address may stand in for the walk (assumption 25), one of a 64 KiB group for the whole group; an entry with
V = 0 is not cached.
The model's choices here: assumptions 25, 48. -/
def Obligations.PageWalk : Prop :=
  let fatal (a : Access) (va k : Nat) : Res (Nat × Nat) := .error (.trap (.protect (BitVec.ofNat 64 va) a.agent k (a.read.toNat + 2 * a.write.toNat + 4 * a.fetch.toNat)))
  let checked (s : State) (a : Access) (va root e pa : Nat) : Prop :=
    let allowed := (a.read = true → e.testBit 1 = true) ∧ (a.write = true → e.testBit 2 = true) ∧ (a.fetch = true → e.testBit 3 = true) ∧ (a.user = true → e.testBit 7 = true)
    (allowed → e.testBit 6 = a.cask → translate s root a va = .ok (pa, e / 2 ^ 52 % 2048)) ∧
    (¬allowed → translate s root a va = fatal a va 1) ∧ (allowed → e.testBit 6 ≠ a.cask → translate s root a va = fatal a va 2)
  let next (e : Nat) : Nat := e / 2 ^ 12 % 2 ^ 40 * 2 ^ 12
  (∀ (s : State) (a : Access) (va root : Nat), va < 2 ^ 57 → (∀ x ∈ s.tlb, x.covers root va = false) →
    let entry (t i : Nat) : Nat := s.rdN (t + 8 * i) 8
    let e4 := entry root (va / 2 ^ 39)
    let e3 := entry (next e4) (va / 2 ^ 30 % 512)
    let e2 := entry (next e3) (va / 2 ^ 21 % 512)
    let e1 := entry (next e2) (va / 2 ^ 12 % 512)
    let table (e : Nat) : Prop := e.testBit 0 = true ∧ ∀ i ∈ [4, 5, 8, 9, 10, 11, 63], e.testBit i = false
    let leaf (e : Nat) : Prop := e.testBit 0 = true ∧ e.testBit 5 = true ∧ ∀ i ∈ [4, 9, 10, 11, 63], e.testBit i = false
    let missing : Res (Nat × Nat) := .error (.trap (.miss (BitVec.ofNat 64 va) a.agent (a.read.toNat + 2 * a.write.toNat + 4 * a.fetch.toNat)))
    let fatal (k : Nat) := fatal a va k
    let ends (e sz : Nat) : Prop := checked s a va root e (next e + va % sz)
    (table e4 → table e3 → table e2 → leaf e1 → ends e1 (2 ^ 12)) ∧
    (table e4 → table e3 → leaf e2 → e2.testBit 8 = false → next e2 % 2 ^ 21 = 0 → ends e2 (2 ^ 21)) ∧
    (table e4 → leaf e3 → e3.testBit 8 = false → next e3 % 2 ^ 30 = 0 → ends e3 (2 ^ 30)) ∧
    (e4.testBit 0 = false → translate s root a va = missing) ∧ (table e4 → e3.testBit 0 = false → translate s root a va = missing) ∧
    (table e4 → table e3 → e2.testBit 0 = false → translate s root a va = missing) ∧
    (table e4 → table e3 → table e2 → e1.testBit 0 = false → translate s root a va = missing) ∧
    (leaf e4 → translate s root a va = fatal 3) ∧ (table e4 → table e3 → table e2 → table e1 → translate s root a va = fatal 3) ∧
    (∀ i ∈ [4, 9, 10, 11, 63], e4.testBit 0 = true → e4.testBit i = true → translate s root a va = fatal 3) ∧
    (table e4 → table e3 → leaf e2 → e2.testBit 8 = false → next e2 % 2 ^ 21 ≠ 0 → translate s root a va = fatal 3) ∧
    (table e4 → leaf e3 → e3.testBit 8 = false → next e3 % 2 ^ 30 ≠ 0 → translate s root a va = fatal 3)) ∧
  (∀ (s : State) (a : Access) (va root : Nat), translate s root a va = translate { s with tlb := [] } root a va ∨ ∃ x ∈ s.tlb, x.root = root ∧
    let sz := 2 ^ (12 + 9 * x.lvl)
    (va / sz = x.va / sz ∨ x.lvl = 0 ∧ x.leaf.testBit 8 = true ∧ va / 2 ^ 16 = x.va / 2 ^ 16) ∧
    checked s a va root x.leaf (if va / sz = x.va / sz then next x.leaf + va % sz else next x.leaf / 2 ^ 16 * 2 ^ 16 + va % 2 ^ 16)) ∧
  (∀ (s : State) (va root : Nat), ∃ l, s.cachePage root va = { s with tlb := l ++ s.tlb } ∧ ∀ x ∈ l, x.root = root ∧ x.va = va ∧ x.leaf.testBit 0 = true)

/-- R108 to R115: `vld`, `sld` and `vgld`: the addresses, the values of the lanes of E, the queue entry of qual 11, the wait of
`.fe` and `.fec` for full granules, and the base pair. A load changes no memory. The places of `vgld` are checked at its issue and read
by its engine later, which then gives its registers or its queue entry their values (R115, R245).
The model's choices here: assumptions 8, 29, 75, 93, 95. -/
def Obligations.Loads : Prop :=
  (∀ (v p : BitVec 6) (m z q : BitVec 2) (i : BitVec 4) (s : State) (pl : Fin 32 → Place),
    let sz := 2 ^ z.toNat
    let b := s.UD (2 * p.toNat)
    let inc := s.bump p m 16 32 i
    s.Reaches (progAccess s.warp.level true (q = 2) 0) sz (fun l => memLane b m sz 16 i.toNat l) pl →
    (q = 0 ∨ q = 3 → ∀ l : Fin 32, s.E.getLsbD l = true → s.poisoned (pl l) sz = false) → (m = 2 → s.ringLen (i.toNat / 4) ≠ 0) →
    (q = 0 → Gives (.vld v p m z q i) s s none (s.loaded v.toNat (z = 3) (fun l => leNat (s.readPlace (pl l) sz)) ++ inc)) ∧
    (q = 3 → z = 2 → Gives (.vld v p m z q i) s (s.queued (v.toNat % 4) (s.laned (fun l => leNat (s.readPlace (pl l) sz)) 0) b) none inc) ∧
    (q = 1 ∨ q = 2 → (∀ l : Fin 32, s.E.getLsbD l = true → (pl l).inScratch = true) →
      Gives (.vld v p m z q i) s
        (if s.E = 0 then s else s.issues (s.nextId + 1) .none (.feload sz (q = 2) s.nextId ((lanesOf s.E).filterMap fun l =>
          match pl l with | .scratch c x o => some (l.val, c, x, o) | _ => none) s.active0) s.issue.sp)
        none (s.loaded v.toNat (z = 3) (fun _ => 0) ++ inc))) ∧
  (∀ (v p : BitVec 6) (m z q : BitVec 2) (i : BitVec 4) (s : State) (pl : Place),
    let sz := 2 ^ z.toNat
    let b := s.UD (2 * p.toNat)
    let inc := s.bump p m sz sz i
    let x := leNat (s.readPlace pl sz)
    let value (x : Nat) : List Write := if z = 3 then uPair v.toNat (BitVec.ofNat 64 x) else [uW v.toNat (BitVec.ofNat 32 x)]
    place s (progAccess s.warp.level true (q = 2) 0) (memLane b m sz sz i.toNat 0) sz = .ok pl →
    (q = 0 ∨ q = 3 → s.poisoned pl sz = false) → (m = 2 → s.ringLen (i.toNat / 4) ≠ 0) →
    (q = 0 → Gives (.sld v p m z q i) s s none (value x ++ inc)) ∧
    (q = 3 → z = 2 → Gives (.sld v p m z q i) s (s.queued (v.toNat % 4) (splat (BitVec.ofNat 32 x)) b) none inc) ∧
    (q = 1 ∨ q = 2 → ∀ c k o, pl = .scratch c k o →
      Gives (.sld v p m z q i) s (s.issues (s.nextId + 1) .none (.feload sz (q = 2) s.nextId [(0, c, k, o)] s.active0) s.issue.sp) none (value 0 ++ inc))) ∧
  (∀ (v p : BitVec 6) (m : BitVec 1) (z q h : BitVec 2) (s : State) (pl : Fin 32 → Place),
    let sz := 2 ^ z.toNat
    let b := s.UD (2 * p.toNat)
    let x (l : Nat) : Word := ((s.V s.pfx.v.toNat)[l]?).getD 0
    s.Reaches (progAccess s.warp.level true (q = 2) 1) sz
      (fun l => b + ((if m = 1 then (x l).signExtend 64 else (x l).setWidth 64) <<< h.toNat)) pl →
    s.Room .gs →
    let gathers (k : EngKind) (off : Nat) : State := if s.E = 0 then s else s.issues (s.nextId + 1) .gs k off
    let cells : List (Nat × Place) := (lanesOf s.E).map fun l => (l.val, pl l)
    (q = 0 → Gives (.vgld v p m z q h) s (gathers (.gather sz s.nextId cells) 0) none (s.loaded v.toNat (z = 3) (fun _ => 0))) ∧
    (q = 3 → z = 2 → Gives (.vgld v p m z q h) s
      (let t := s.queued (v.toNat % 4) (s.laned (fun _ => 0) 0) b
       if s.E = 0 then t else t.issues (s.nextId + 1) .gs (.gather sz s.nextId cells) 0) none []) ∧
    (q = 1 ∨ q = 2 → (∀ l : Fin 32, s.E.getLsbD l = true → (pl l).inScratch = true) →
      Gives (.vgld v p m z q h) s
        (gathers (.feload sz (q = 2) s.nextId ((lanesOf s.E).filterMap fun l => match pl l with | .scratch c x o => some (l.val, c, x, o) | _ => none) s.active0) s.issue.sp)
        none (s.loaded v.toNat (z = 3) (fun _ => 0)))) ∧
  (∀ (s : State) (o : EngOp) (r : List EngOp) (w : Warp) (sz pid : Nat) (ps : List (Nat × Place)), s.Ready o r → o.kind = .gather sz pid ps → (∀ p ∈ ps, s.poisoned p.2 sz = false) → s.getWarp o.key = some w →
    let v (sh : Nat) : VReg := Vector.ofFn fun l => BitVec.ofNat 32 (match ps.find? (fun p => p.1 = l.val) with
      | some p => leNat (s.readPlace p.2 sz) / 2 ^ sh | none => 0)
    ∃ u w', s.Performs o r u ∧ u = { s with warps := u.warps } ∧ u.getWarp o.key = some w' ∧ (∀ k, k ≠ o.key → u.getWarp k = s.getWarp k) ∧
      (let come (_ : Nat) (q : List DqEntry) : List DqEntry := q.map fun e => if e.id = pid then { e with val := v 0, arrived := true } else e
       w'.dq = w.dq.mapIdx come ∧ w'.dqWait = w.dqWait.mapIdx come) ∧
      (∀ x, w.pend = [x] → x.id = pid → w' = { w.writeDest x.dest x.lanes (v 0) with pend := [], dq := w'.dq, dqWait := w'.dqWait }) ∧
      (∀ x y, w.pend = [x, y] → x.id = pid → y.id = pid →
        w' = { (w.writeDest x.dest x.lanes (v 0)).writeDest y.dest y.lanes (v 32) with pend := [], dq := w'.dq, dqWait := w'.dqWait }))

/-- R108 to R112, R115, R331: `vst` and `sst`: the bytes stored at the addresses of R108, and no other byte of memory, the granules that
`.fs` sets, and the base pair. The places of `vgst` are checked at its issue and stored to by its engine later, in the same way (R115,
R245). A store to frozen granules writes the reserve of the checkpoint too, and waits where the reserve has no room for all of them (R347).
The model's choices here: assumptions 8, 75. -/
def Obligations.StoresMemory : Prop :=
  (∀ s : State, Memory.wf s = true → s.active = true →
  (∀ (v p : BitVec 6) (m z q : BitVec 2) (i : BitVec 4) (pl : Fin 32 → Place),
    let sz := 2 ^ z.toNat
    s.Reaches (progAccess s.warp.level false true 0) sz (fun l => memLane (s.UD (2 * p.toNat)) m sz 16 i.toNat l) pl →
    (m = 2 → s.ringLen (i.toNat / 4) ≠ 0) → (q = 3 → ∀ l : Fin 32, s.E.getLsbD l = true → (pl l).inScratch = true) →
    s.writable ((lanesOf s.E).map fun l => (l.val, pl l)) = true →
    ∃ u, Stores s u (lanesOf s.E) sz (q = 3) pl (s.source v.toNat (z = 3)) ∧ Gives (.vst v p m z q i) s u none (s.bump p m 16 32 i)) ∧
  (∀ (v p : BitVec 6) (m z q : BitVec 2) (i : BitVec 4) (pl : Place),
    let sz := 2 ^ z.toNat
    place s (progAccess s.warp.level false true 0) (memLane (s.UD (2 * p.toNat)) m sz sz i.toNat 0) sz = .ok pl →
    (m = 2 → s.ringLen (i.toNat / 4) ≠ 0) → (q = 3 → pl.inScratch = true) → s.writable [(0, pl)] = true →
    ∃ u, Stores s u [0] sz (q = 3) (fun _ => pl) (fun _ => if z = 3 then (s.UD v.toNat).toNat else (s.U v.toNat).toNat) ∧
      Gives (.sst v p m z q i) s u none (s.bump p m sz sz i)) ∧
  (∀ (v p : BitVec 6) (m : BitVec 1) (z q h : BitVec 2) (pl : Fin 32 → Place),
    let sz := 2 ^ z.toNat
    let x (l : Nat) : Word := ((s.V s.pfx.v.toNat)[l]?).getD 0
    s.Reaches (progAccess s.warp.level false true 1) sz
      (fun l => s.UD (2 * p.toNat) + ((if m = 1 then (x l).signExtend 64 else (x l).setWidth 64) <<< h.toNat)) pl →
    (q = 3 → ∀ l : Fin 32, s.E.getLsbD l = true → (pl l).inScratch = true) → s.Room .gs →
    Gives (.vgst v p m z q h) s (if s.E = 0 then s else s.issues s.nextId .gs
      (.scatter sz (q = 3) ((lanesOf s.E).map fun l => (pl l, s.source v.toNat (z = 3) l))) 0) none [])) ∧
  (∀ (s : State) (o : EngOp) (r : List EngOp) (z : BitVec 2) (fs : Bool) (m : Word) (pl : Fin 32 → Place) (val : Fin 32 → Nat),
    Memory.wf s = true → s.Ready o r →
    let sz := 2 ^ z.toNat
    o.kind = .scatter sz fs ((lanesOf m).map fun l => (pl l, val l)) → s.Placed (lanesOf m) sz pl →
    s.writable ((lanesOf m).map fun l => (l.val, pl l)) = true →
    ∃ u, Stores s u (lanesOf m) sz fs pl val ∧ s.Performs o r u)

/-- R109, R115, R117, R119: a fault of one lane: no register, no base and no byte is written; the fault of the lowest such lane is
taken. A lane of a full-empty access outside the scratchpad window, and one of `catom` outside the cellar window, raises the address
fault whatever its page holds (R112, R119). R111: LEN 0 raises cause 4 before any effect.
The model's choices here: assumption 25, and assumption 93, that of several lanes' faults the lowest lane's is taken. -/
def Obligations.MemoryFaults : Prop :=
  ∀ (s : State) (v p : BitVec 6) (z q h y : BitVec 2) (i : BitVec 4) (k : Fin 32) (t : Trap),
    let b := s.UD (2 * p.toNat)
    let sz := 2 ^ z.toNat
    let first (a : Access) (n : Nat) (addr : Nat → DWord) : Prop :=
      s.E.getLsbD k = true ∧ place s a (addr k) n = .error (.trap t) ∧ ∀ l : Fin 32, l < k → s.E.getLsbD l = true → ∃ pl, place s a (addr l) n = .ok pl
    let index (l : Nat) : Word := ((s.V s.pfx.v.toNat)[l]?).getD 0
    let cell (l : Nat) : Res Place := place s (progAccess s.warp.level true true 0) (b + (index l).setWidth 64) (if y = 1 then 8 else 4)
    let window (x : DWord) : Prop := 0xFFFFF00000000000 ≤ x.toNat ∧ x.toNat < 0xFFFFF00000000000 + 2 ^ 32
    let cellar (x : DWord) : Prop := 0xFFFFE00000000000 ≤ x.toNat ∧ x.toNat < 0xFFFFE00000000000 + 2 ^ 26
    let inside (on : Prop) (addr : Nat → DWord) : Prop := on → ∀ l : Fin 32, s.E.getLsbD l = true → window (addr l)
    let outside (on : Prop) (addr : Nat → DWord) : Prop :=
      on ∧ s.E.getLsbD k = true ∧ ¬window (addr k) ∧ ∀ l : Fin 32, l < k → s.E.getLsbD l = true → window (addr l)
    let load := q = 1 ∨ q = 2
    (∀ m : BitVec 2, (m = 2 → s.ringLen (i.toNat / 4) ≠ 0) →
      let vec (l : Nat) : DWord := memLane b m sz 16 i.toNat l
      let one : DWord := memLane b m sz sz i.toNat 0
      (first (progAccess s.warp.level true (q = 2) 0) sz vec → inside load vec → exec (.vld v p m z q i) s = .next (takeTrap t s)) ∧
      (first (progAccess s.warp.level false true 0) sz vec → inside (q = 3) vec → exec (.vst v p m z q i) s = .next (takeTrap t s)) ∧
      (place s (progAccess s.warp.level true (q = 2) 0) one sz = .error (.trap t) → (load → window one) → exec (.sld v p m z q i) s = .next (takeTrap t s)) ∧
      (place s (progAccess s.warp.level false true 0) one sz = .error (.trap t) → (q = 3 → window one) → exec (.sst v p m z q i) s = .next (takeTrap t s)) ∧
      (outside load vec → exec (.vld v p m z q i) s = .next (takeTrap (.address (vec k)) s)) ∧
      (outside (q = 3) vec → exec (.vst v p m z q i) s = .next (takeTrap (.address (vec k)) s)) ∧
      (load → ¬window one → exec (.sld v p m z q i) s = .next (takeTrap (.address one) s)) ∧
      (q = 3 → ¬window one → exec (.sst v p m z q i) s = .next (takeTrap (.address one) s))) ∧
    (∀ m : BitVec 1, let addr (l : Nat) : DWord := b + ((if m = 1 then (index l).signExtend 64 else (index l).setWidth 64) <<< h.toNat)
      (first (progAccess s.warp.level true (q = 2) 1) sz addr → inside load addr → exec (.vgld v p m z q h) s = .next (takeTrap t s)) ∧
      (first (progAccess s.warp.level false true 1) sz addr → inside (q = 3) addr → exec (.vgst v p m z q h) s = .next (takeTrap t s)) ∧
      (outside load addr → exec (.vgld v p m z q h) s = .next (takeTrap (.address (addr k)) s)) ∧
      (outside (q = 3) addr → exec (.vgst v p m z q h) s = .next (takeTrap (.address (addr k)) s))) ∧
    (first (progAccess s.warp.level true true 0) (if y = 1 then 8 else 4) (fun l => b + (index l).setWidth 64) →
      ∀ o r c, exec (.vatom v p o r c y) s = .next (takeTrap t s)) ∧
    (s.E.getLsbD k = true → (cellar (b + (index k).setWidth 64) ∧ cell k = .error (.trap t) ∨
        ¬cellar (b + (index k).setWidth 64) ∧ t = .address (b + (index k).setWidth 64)) →
      (∀ l : Fin 32, l < k → s.E.getLsbD l = true → ∃ off, cell l = .ok (.cellar off)) → ∀ o r n, exec (.catom v p o r n y) s = .next (takeTrap t s)) ∧
    (s.ringLen (i.toNat / 4) = 0 → ∀ j ∈ ([.vld v p 2 z q i, .sld v p 2 z q i, .vst v p 2 z q i, .sst v p 2 z q i] : List Instr),
      exec j s = .next (takeTrap (.illegal 4 s.issue.slot) s))

/-- R116 to R120, R233: the new value of each operation, lane by lane in increasing order, and the old values returned. `catom` with N = 1
counts on `cl` and returns nothing; the bank performs it later, on poisoned lines too, which stay poisoned.
The model's choices here: assumptions 8, 64, 65. -/
def Obligations.VectorAtomics : Prop :=
  let f (o : BitVec 3) (y : BitVec 2) (old d e : Nat) : Nat :=
    let sz := if y = 1 then 8 else 4
    if o = 0 then (if y = 2 then (f32Add (BitVec.ofNat 32 old) (BitVec.ofNat 32 d)).toNat else (old + d) % 2 ^ (8 * sz))
    else if o = 1 then
      (if y = 2 then fmin fp32 old d else if y = 1 then (if (BitVec.ofNat 64 old).toInt < (BitVec.ofNat 64 d).toInt then old else d)
       else if (BitVec.ofNat 32 old).toInt < (BitVec.ofNat 32 d).toInt then old else d)
    else if o = 2 then
      (if y = 2 then fmax fp32 old d else if y = 1 then (if (BitVec.ofNat 64 old).toInt < (BitVec.ofNat 64 d).toInt then d else old)
       else if (BitVec.ofNat 32 old).toInt < (BitVec.ofNat 32 d).toInt then d else old)
    else if o = 3 then old &&& d else if o = 4 then old ||| d else if o = 5 then old ^^^ d else if o = 6 then d
    else if old = e then d else old
  let does (s : State) (m : Word) (sz : Nat) (pl : Fin 32 → Place) (new : Fin 32 → Nat → Nat) (old : Fin 32 → Nat) (st : Nat → State) : Prop :=
    st 0 = s ∧ OnlyAt s (st 32) ((lanesOf m).map fun l => (pl l, sz)) ∧
    ∀ l : Fin 32, (m.getLsbD l = false → st (l + 1) = st l) ∧ (m.getLsbD l = true →
      old l = leNat ((st l).readPlace (pl l) sz) ∧
      st (l + 1) = if new l (old l) = old l then st l else (st l).writePlace (pl l) (leBytes sz (new l (old l))) false)
  (∀ s : State, Memory.wf s = true → ∀ (v p : BitVec 6) (o : BitVec 3) (y : BitVec 2) (pl : Fin 32 → Place), y ≠ 3 →
    let sz := if y = 1 then 8 else 4
    let val := s.source v.toNat (y = 1)
    let operand (l : Fin 32) : Nat := if o = 7 then s.source (v.toNat + if y = 1 then 2 else 1) (y = 1) l else val l
    let does := does s s.E sz pl (fun l old => f o y old (operand l) (val l))
    s.Reaches (progAccess s.warp.level true true 0) sz (fun l => s.UD (2 * p.toNat) + (((s.V s.pfx.v.toNat)[l]?).getD 0).setWidth 64) pl →
    ((∀ l : Fin 32, s.E.getLsbD l = true → s.poisoned (pl l) sz = false) →
      s.writable ((lanesOf s.E).map fun l => (l.val, pl l)) = true → ∀ r c,
      ∃ old st, does old st ∧ Gives (.vatom v p o r c y) s (st 32) none (s.loaded v.toNat (y = 1) old)) ∧
    ((∀ l : Fin 32, s.E.getLsbD l = true → ∃ off, pl l = .cellar off) → ∀ r,
      ((∀ l : Fin 32, s.E.getLsbD l = true → s.poisoned (pl l) sz = false) →
        ∃ old st, does old st ∧ Gives (.catom v p o r 0 y) s (st 32) none (s.loaded v.toNat (y = 1) old)) ∧
      (s.Room .cl → Gives (.catom v p o r 1 y) s (if s.E = 0 then s else s.issues s.nextId .cl
        (.catom sz o.toNat y.toNat ((lanesOf s.E).map fun l => (pl l, operand l, if o = 7 then val l else 0))) 0) none []))) ∧
  (∀ (s : State) (x : EngOp) (r : List EngOp) (o : BitVec 3) (y : BitVec 2) (m : Word) (pl : Fin 32 → Place) (d e : Fin 32 → Nat), y ≠ 3 →
    let sz := if y = 1 then 8 else 4
    Memory.wf s = true → s.Ready x r → x.kind = .catom sz o.toNat y.toNat ((lanesOf m).map fun l => (pl l, d l, e l)) →
    (∀ l ∈ lanesOf m, ∃ off, pl l = .cellar off ∧ off % sz = 0) → (∀ l, d l < 2 ^ (8 * sz) ∧ e l < 2 ^ (8 * sz)) →
    ∃ old st, does s m sz pl (fun l old => f o y old (d l) (e l)) old st ∧ s.Performs x r (st 32))

/-- R119 to R124, R233: the contributions and abandonments of a lauter cell and the line operations count on `cl`; the bank performs a line
operation later on the elements of the lanes of E, on a poisoned line too, and leaves an open cell's bytes; a fence only orders.
The model's choices here: assumption 65. -/
def Obligations.CellarWords : Prop :=
  ∀ (s : State) (p v : BitVec 6) (off : Nat),
    let b := s.UD (2 * p.toNat)
    (b.toNat % 64 = 0 → place s (progAccess s.warp.level true true 0) b 64 = .ok (.cellar off) → s.Room .cl → ∀ k : BitVec 7,
      Gives (.cfaddo v p k) s (if s.E = 0 then s else s.issues s.nextId .cl (.fold false (off / 64) (s.U k.toNat).toNat s.E (s.V v.toNat) false) 0) none [] ∧
      Gives (.cabandon p k) s (if s.E = 0 then s else s.issues s.nextId .cl (.fold true (off / 64) (s.U k.toNat).toNat s.E zeroVec false) 0) none []) ∧
    let out := b.toNat < 0xFFFFE00000000000 ∨ 0xFFFFE00000000000 + 2 ^ 26 ≤ b.toNat
    (b.toNat % 64 ≠ 0 ∨ out → ∀ k : BitVec 7, exec (.cfaddo v p k) s = .next (takeTrap (.address b) s) ∧ exec (.cabandon p k) s = .next (takeTrap (.address b) s)) ∧
    (b.toNat % 128 ≠ 0 ∨ out → ∀ o : BitVec 3, exec (.cline v p o) s = .next (takeTrap (.address b) s)) ∧
    (b.toNat % 128 = 0 → place s (progAccess s.warp.level true true 0) b 128 = .ok (.cellar off) → s.Room .cl → ∀ o : BitVec 3,
      Gives (.cline v p o) s (if s.E = 0 then s else s.issues s.nextId .cl (.line o.toNat off s.E (s.V v.toNat)) 0) none []) ∧
    (∀ (x : EngOp) (r : List EngOp) (o : BitVec 3) (m : Word) (y : VReg), Memory.wf s = true → s.Ready x r → off % 128 = 0 →
      x.kind = .line o.toNat off m y →
      ∃ st : Nat → State, st 0 = s ∧ OnlyAt s (st 32) ((lanesOf m).map fun (l : Fin 32) => (Place.cellar (off + 4 * l.val), 4)) ∧
      (∀ l : Fin 32,
        let old := BitVec.ofNat 32 (leNat ((st l).readPlace (.cellar (off + 4 * l)) 4))
        let x := y[l]
        let new : Word := if o = 0 then old + x else if o = 1 then f32Add old x else if o = 2 then (if old.toInt < x.toInt then x else old)
          else if o = 3 then (if old.toNat < x.toNat then x else old) else if o = 4 then BitVec.ofNat 32 (fmax fp32 old.toNat x.toNat)
          else BitVec.ofInt 32 (max (-2 ^ 31) (min (2 ^ 31 - 1) (old.toInt + x.toInt)))
        (m.getLsbD l = true → st (l + 1) = if new = old then st l else (st l).writePlace (.cellar (off + 4 * l)) (leBytes 4 new.toNat) false) ∧
        (m.getLsbD l = false → st (l + 1) = st l) ∧
        ((s.cline ((off + 4 * l) / 64)).st = 1 → (st 32).readPlace (.cellar (off + 4 * l)) 4 = s.readPlace (.cellar (off + 4 * l)) 4)) ∧
      s.Performs x r (st 32)) ∧
    (∀ o c, Gives (.fence o c) s s none [])

/-- R125, R293, R16: `accrd` reads the raw row under E, `accwr` writes its lanes of E and clears the row's poison when E holds
all lanes; a tile beyond the block's count and the first use by a block that does not own the store trap. -/
def Obligations.AccumulatorTransfers : Prop :=
  ∀ (s : State) (v : BitVec 6) (l : BitVec 10) (r : BitVec 5),
    (s.blk.acc ≤ l.toNat → exec (.accrd v l r) s = .next (takeTrap .resourceRange s) ∧ exec (.accwr v l r) s = .next (takeTrap .resourceRange s)) ∧
    (l.toNat < s.blk.acc → s.core.accBusy = false → s.core.accown ≠ BitVec.ofNat 3 (4 + s.blk.slot) →
      exec (.accrd v l r) s = .next (takeTrap .accFirstUse s) ∧ exec (.accwr v l r) s = .next (takeTrap .accFirstUse s)) ∧
    (l.toNat < s.blk.acc → s.core.accBusy = false → s.core.accown = BitVec.ofNat 3 (4 + s.blk.slot) → s.Room .ax →
      ((s.blk.tile l.toNat).poison.getLsbD r.toNat = false →
        Gives (.accrd v l r) s (if s.E = 0 then s else s.issues (s.nextId + 1) .ax .accrd 0) none [s.vW v.toNat (s.core.accRow l.toNat r.toNat)]) ∧
      ((s.blk.tile l.toNat).poison.getLsbD r.toNat = true → exec (.accrd v l r) s = .next (takeTrap (.poison l.toNat r.toNat) s)) ∧
      ∃ (acc : List (Nat × VReg)) (ts : List Tile),
        let u : State := { s with core := { s.core with acc := acc }, blk := { s.blk with tiles := ts } }
        (∀ n row, row < 32 → u.core.accRow n row =
          if n = l.toNat ∧ row = r.toNat then Vector.ofFn fun k => if s.E.getLsbD k then (s.V v.toNat)[k] else (s.core.accRow n row)[k] else s.core.accRow n row) ∧
        (∀ n, u.blk.tile n = { s.blk.tile n with
          poison := if n = l.toNat ∧ s.E = allLanes then (s.blk.tile n).poison &&& ~~~(1#32 <<< r.toNat) else (s.blk.tile n).poison }) ∧
        Gives (.accwr v l r) s (if s.E = 0 then u else u.issues s.nextId .ax .accwr 0) none [])

/-! ## Control flow -/

/-- R127, R53, R44: branches move the whole split to packet + 12 × imm or fall through, and one that wraps to an address that is no
packet's traps; R128, R206, R207: `vbra` divides the split: one
part goes on in its record at the label, the other in the lowest free record, or deferred, at the next packet, under a
reconvergence entry. -/
def Obligations.Branches : Prop :=
  ∀ (s : State) (i : BitVec 16), s.issue.sp < 4 →
    let past : State := { s with issue := { s.issue with pfx := none } }
    let p := s.warp.splitAt s.issue.sp
    let target : DWord := s.issue.pkt + 12 * i.signExtend 64
    let goes : State := { s with
      issue := { s.issue with pfx := none, ended := some .taken }
      warp := s.warp.setSplit s.issue.sp { p with pc := target, slot := 0, runLen := 0 } }
    let A (l : Fin 32) : Prop := p.mask.getLsbD l = true
    let taken (word : Instr) : Prop := (target.toNat % 12 = 0 → exec word s = .next goes) ∧
      (target.toNat % 12 ≠ 0 → exec word s = .next (takeTrap (.illegal 10 s.issue.slot) s))
    (∀ k : BitVec 3,
      let K := k = 0 ∨ s.warp.preds.getLsbD k.toNat = true
      (K → taken (.bra k i) ∧ exec (.braNot k i) s = .next past) ∧
      (¬K → exec (.bra k i) s = .next past ∧ taken (.braNot k i))) ∧
    (∀ m : BitVec 3,
      let mk : Word := if m = 0 then p.mask else s.M m.toNat
      let M (l : Fin 32) : Prop := mk.getLsbD l = true
      ((∃ l, M l ∧ A l) → taken (.brcAny m i) ∧ exec (.brcNone m i) s = .next past) ∧
      ((∀ l, M l → ¬A l) → exec (.brcAny m i) s = .next past ∧ taken (.brcNone m i)) ∧
      ((∀ l, A l → M l) → taken (.brcAll m i)) ∧ ((∃ l, A l ∧ ¬M l) → exec (.brcAll m i) s = .next past) ∧
      ∀ neg : Bool,
        let word : Instr := if neg then .vbraNot m i else .vbra m i
        let T : Word := if neg then p.mask &&& ~~~mk else mk &&& p.mask
        let N : Word := p.mask &&& ~~~T
        let sig := p.sig ^^^ (T ^^^ N ^^^ p.mask)
        (T = 0 → exec word s = .next past) ∧ (T ≠ 0 → N = 0 ∨ target.toNat % 12 ≠ 0 → taken word) ∧
        (T ≠ 0 → N ≠ 0 → target.toNat % 12 = 0 → 32 ≤ s.warp.recon.length → exec word s = .next (takeTrap .reconvOverflow s)) ∧
        (T ≠ 0 → N ≠ 0 → target.toNat % 12 = 0 → s.warp.recon.length < 32 → p.st = .live →
          let q : Split := { p with mask := T, sig := sig, pc := target, slot := 0, runLen := 0 }
          ∃ d : Split, d.mask = N ∧ d.pc = s.issue.pkt + 12 ∧ d.slot = 0 ∧ d.sig = sig ∧ d.region = p.region ∧ d.saved = p.saved ∧ d.mism = p.mism ∧ d.st = .live ∧ d.ptrap = none ∧
            let after (splits : Vector Split 4) (e : List Split) : State := { s with
              issue := { s.issue with pfx := none, ended := some .taken }
              warp := { s.warp with splits := splits, recon := ⟨p.mask, 0, e, none, s.issue.sp⟩ :: s.warp.recon } }
            (∀ j < 4, (s.warp.splitAt j).st = .free → (∀ k < j, (s.warp.splitAt k).st ≠ .free) →
              exec word s = .next (after ((s.warp.splits.setIfInBounds s.issue.sp q).setIfInBounds j d) [])) ∧
            ((∀ j < 4, (s.warp.splitAt j).st ≠ .free) → exec word s = .next (after (s.warp.splits.setIfInBounds s.issue.sp q) [d]))))

/-- R129, R131, R132, R215, R219, R58, R220, R329: `call` and `calli` of one target push the return packet and the slide, advance the window
and begin a region; they trap at a target that is no packet's and beyond the depth limit, and wait without room in the ring. `calli` of
several targets divides the split first. The other live splits park behind the call, those at a barrier where they are.
`ret` undoes it, waits for a spilled frame or, where that never fits, has it refilled after the slide, and traps on an address that is no
packet's; the parked splits are live again, also when every lane of the calling split exits in the callee.
The model's choices here: assumptions 36, 38, 81, 95, 97. -/
def Obligations.CallsAndReturns : Prop :=
  ∀ s : State, s.issue.sp < 4 →
    let p := s.warp.splitAt s.issue.sp
    let parks (i : Instr) (w : Wait) : Prop := ∃ t, exec i s = .next t ∧ t.issue.ended = some (.waiting w) ∧
      t.warp = s.warp.setSplit s.issue.sp { p with wait := some w }
    (∀ (i : Instr) (target : DWord) (k : BitVec 3),
      (∃ j : BitVec 16, i = .call k j ∧ target = s.issue.pkt + 12 * j.signExtend 64) ∨
        (∃ n : BitVec 6, i = .calli n k ∧ p.pendCall = none ∧ p.mask ≠ 0 ∧
          ∀ l : Fin 32, p.mask.getLsbD l = true → (s.V (n.toNat + 1))[l] ++ (s.V n.toNat)[l] = target) ∨
        (∃ n : BitVec 6, i = .calli n k ∧ p.pendCall = some target) →
      let K := 8 * k.toNat
      let held := 48 + ((s.warp.links.filter fun l => !l.out).map (·.k)).sum +
        match s.warp.rack with | some r => if r.spill = false ∧ r.own = none then r.k else 0 | none => 0
      let others := (List.range 4).filter fun j => j ≠ s.issue.sp ∧ (s.warp.splitAt j).st = .live
      let meets (q : Split) : Bool := match q.wait with | some (.barrier ..) => true | some (.arriveWait ..) => true | _ => false
      (target.toNat % 12 ≠ 0 → exec i s = .next (takeTrap (.illegal 10 s.issue.slot) s)) ∧
      (target.toNat % 12 = 0 → s.warp.wlimit < s.warp.links.length + 1 → exec i s = .next (takeTrap .windowOverflow s)) ∧
      (target.toNat % 12 = 0 → s.warp.links.length + 1 ≤ s.warp.wlimit → K + 48 ≤ s.warp.w → s.warp.w < held + K → parks i (.callRoom K)) ∧
      (target.toNat % 12 = 0 → s.warp.links.length + 1 ≤ s.warp.wlimit → s.warp.w < K + 48 → s.warp.rackDone ≠ some s.issue.sp → parks i (.callRoom K)) ∧
      (target.toNat % 12 = 0 → s.warp.links.length + 1 ≤ s.warp.wlimit → (K + 48 ≤ s.warp.w ∧ held + K ≤ s.warp.w ∨ s.warp.w < K + 48 ∧ s.warp.rackDone = some s.issue.sp) →
        ∃ mark splits, exec i s = .next { s with
          issue := { s.issue with pfx := none, ended := some .taken }
          warp := { s.warp with
            links := ⟨s.issue.pkt + 12, K, decide (s.warp.w < K + 48)⟩ :: s.warp.links
            wbase := (s.warp.wbase + K) % s.warp.w
            rackDone := none
            rack := s.warp.rack.filter fun x => !x.spill || x.own.isNone
            callParks := if others = [] then s.warp.callParks else ⟨s.warp.links.length, s.warp.wbase, p.mask, others⟩ :: s.warp.callParks
            splits := splits } } ∧
          ∀ j : Fin 4, splits[j] = if j.val = s.issue.sp then { p with
              pc := target, slot := 0, runLen := 0, region := target, saved := p.sig, mism := p.mism && p.region == target,
              mark := mark, rmerge := none, rskip := false, spent := false, pendCall := none }
            else if j.val ∈ others ∧ meets s.warp.splits[j] = false then { s.warp.splits[j] with st := .behindCall } else s.warp.splits[j])) ∧
    (∀ (n : BitVec 6) (k : BitVec 3) (ts : List (DWord × Word)), p.pendCall = none → p.st = .live → 2 ≤ ts.length → (ts.map (·.1)).Nodup →
      (∀ l : Fin 32, p.mask.getLsbD l = true → (s.V (n.toNat + 1))[l] ++ (s.V n.toNat)[l] ∈ ts.map (·.1)) →
      (∀ x ∈ ts, x.2 ≠ 0 ∧ ∀ l : Fin 32, x.2.getLsbD l = (p.mask.getLsbD l && decide ((s.V (n.toNat + 1))[l] ++ (s.V n.toNat)[l] = x.1))) →
      ts.Pairwise (fun x y => ∃ l : Fin 32, x.2.getLsbD l = true ∧ ∀ m : Fin 32, y.2.getLsbD m = true → l < m) →
      ((∃ x ∈ ts, x.1.toNat % 12 ≠ 0) → exec (.calli n k) s = .next (takeTrap (.illegal 10 s.issue.slot) s)) ∧
      ((∀ x ∈ ts, x.1.toNat % 12 = 0) → 32 ≤ s.warp.recon.length → exec (.calli n k) s = .next (takeTrap .reconvOverflow s)) ∧
      ((∀ x ∈ ts, x.1.toNat % 12 = 0) → s.warp.recon.length < 32 → ∀ t m r, ts = (t, m) :: r →
        let free := (List.range 4).filter fun j => (s.warp.splitAt j).st = .free
        let arm (x : DWord × Word) : Split := { p with
          mask := x.2, pendCall := some x.1, runLen := 0, nextIssue := s.clock + 1, stamp := s.clock, lost := 0, lastWin := 0, ptrap := none }
        ∃ splits : Vector Split 4, exec (.calli n k) s = .next { s with
          issue := { s.issue with pfx := none, ended := some .taken }
          warp := { s.warp with
            splits := splits
            recon := ⟨p.mask, 0, (r.drop free.length).map arm, some (s.issue.pkt + 12, s.warp.links.length), s.issue.sp⟩ :: s.warp.recon } } ∧
          (∀ j : Fin 4, j.val = s.issue.sp → splits[j] = { p with mask := m, pendCall := some t, runLen := 0 }) ∧
          (∀ x ∈ free.zip r, splits[x.1]? = some (arm x.2)) ∧
          ∀ j : Fin 4, j.val ≠ s.issue.sp → j.val ∉ free.take r.length → splits[j] = s.warp.splits[j])) ∧
    (∀ l r, s.warp.links = l :: r →
      let back : List Nat := match s.warp.callParks with | c :: _ => if c.depth = r.length then c.who else [] | [] => []
      let flight := s.warp.rack.filter fun x => decide (x.depth ≤ r.length)
      let refill : Option Rack := if l.out then some ⟨false, r.length + 1, l.k, 0, some s.issue.sp, none⟩ else none
      (l.ret.toNat % 12 ≠ 0 → exec .ret s = .next (takeTrap (.illegal 10 s.issue.slot) s)) ∧
      (l.ret.toNat % 12 = 0 → l.out = true → l.k + 48 ≤ s.warp.w → parks .ret .retFrame) ∧
      (l.ret.toNat % 12 = 0 → (l.out = false ∨ s.warp.w < l.k + 48) → s.issue.sp ∉ back → (∀ e ∈ s.warp.recon, e.merge = none) →
        ∃ mark splits, exec .ret s = .next { s with
          issue := { s.issue with pfx := none, ended := some .taken }
          warp := { s.warp with
            links := r
            wbase := (s.warp.wbase + s.warp.w - l.k) % s.warp.w
            rackDone := none
            rack := flight.or refill
            rackNext := if flight.isSome then refill.or s.warp.rackNext else s.warp.rackNext
            callParks := match s.warp.callParks with | c :: cs => if c.depth = r.length then cs else c :: cs | [] => []
            splits := splits } } ∧
          ∀ j : Fin 4, splits[j] = if j.val = s.issue.sp then { p with
              pc := l.ret, slot := 0, runLen := 0, region := l.ret, saved := p.sig, mism := p.mism && p.region == l.ret,
              mark := mark, rmerge := none, rskip := false, spent := false, folded := [] }
            else if j.val ∈ back then { s.warp.splits[j] with st := .live } else s.warp.splits[j])) ∧
    (s.warp.links = [] → exec .ret s = exec .exit s) ∧
    (∀ c, s.warp.level = .user → s.warp.callParks = [c] → s.warp.recon = [] → s.issue.sp ∉ c.who →
      (∀ j < 4, j ≠ s.issue.sp → (s.warp.splitAt j).st = .free ∨ (s.warp.splitAt j).st = .behindCall) →
      (∃ j < 4, j ≠ s.issue.sp ∧ (s.warp.splitAt j).st = .behindCall) → p.atAwait = false → s.feHeld s.warp s.issue.sp = false →
      ∃ splits, exec .exit s = .next (State.spreadHolds { s with
        issue := { s.issue with pfx := none, ended := some .gone }
        warp := { s.warp with
          links := s.warp.links.drop (s.warp.links.length - c.depth)
          wbase := c.wbase
          rack := s.warp.rack.filter fun x => decide (x.depth ≤ c.depth)
          rackNext := s.warp.rackNext.filter fun x => decide (x.depth ≤ c.depth)
          rackDone := none
          callParks := []
          splits := splits } }) ∧
        ∀ j : Fin 4, splits[j] = if j.val = s.issue.sp then Split.none else if j.val ∈ c.who then { s.warp.splits[j] with st := .live } else s.warp.splits[j])

/-- R134 to R136, R133, R140, R149, R207, R220, R245: region marks, the loop head, a split that parks at its entry or merges with the other part, lanes
that leave entries, a deferred part that goes on in the record of the split that arrived or ended last, and the end of a split, which
traps while another one stands at a barrier and waits for its full-empty loads, or of the warp's last one, which waits for the warp's
operations. A load that waits binds the lanes that its lanes merge with (`spreadHolds`).
The model's choices here: assumptions 33, 35, 78, 81, 95. -/
def Obligations.RegionsAndMerges : Prop :=
  ∀ s : State, s.issue.sp < 4 →
    let p := s.warp.splitAt s.issue.sp
    let past : State := { s with issue := { s.issue with pfx := none } }
    let goes := (∀ j < 4, (s.warp.splitAt j).st ≠ .atBarrier ∧ (s.warp.splitAt j).atAwait = false) ∧ s.feHeld s.warp s.issue.sp = false
    (exec .region s = .next { past with warp := s.warp.setSplit s.issue.sp { p with
      region := s.issue.pkt, saved := p.presig, mism := p.mism && p.region == s.issue.pkt, mark := s.nextId, rmerge := none, rskip := false, spent := false } }) ∧
    (exec .lhead s = .next { past with warp := { s.warp with loopHead := s.issue.pkt } }) ∧
    ((∀ e ∈ s.warp.recon, e.pending &&& p.mask = 0) → p.rmerge = none → exec .reconv s = .next past) ∧
    (∀ e r, s.warp.recon = e :: r → e.pending &&& p.mask ≠ 0 → p.rskip = false → e.deferred = [] →
      (e.pending &&& ~~~(e.arrived ||| p.mask) ≠ 0 → (∀ x ∈ r, x.deferred = [] ∧ x.pending &&& ~~~x.arrived ≠ 0) →
        exec .reconv s = .next (State.spreadHolds { s with
          issue := { s.issue with pfx := none, ended := some .taken }
          warp := { s.warp with
            splits := s.warp.splits.setIfInBounds s.issue.sp { p with pc := s.issue.pkt, slot := s.issue.next, runLen := 0, st := .atReconv }
            recon := { e with arrived := e.arrived ||| p.mask, home := s.issue.sp } :: r } })) ∧
      (∀ o < 4, o ≠ s.issue.sp → r = [] →
        let q := s.warp.splitAt o
        q.st = .atReconv → q.pc = s.issue.pkt → q.slot = s.issue.next → q.mask ≠ 0 → p.mask ≠ 0 → e.arrived = q.mask → e.pending = q.mask ||| p.mask →
        (∀ j < 4, j ≠ o → j ≠ s.issue.sp → (s.warp.splitAt j).st = .free) →
        ∃ t, exec .reconv s = .next t ∧ t.warp.recon = [] ∧
          let m := t.warp.splitAt (min o s.issue.sp)
          m.st = .live ∧ m.mask = e.pending ∧ m.sig = p.sig ^^^ q.sig ∧ m.region = s.issue.pkt ∧ m.wait = none ∧
          m.pc = (if s.issue.next < 3 then s.issue.pkt else s.issue.pkt + 12) ∧ m.slot = (if s.issue.next < 3 then s.issue.next else 0) ∧
          m.ptrap = (s.warp.splitAt (min o s.issue.sp)).ptrap.or (s.warp.splitAt (max o s.issue.sp)).ptrap ∧
          (t.warp.splitAt (max o s.issue.sp)).st = .free ∧
          t = State.spreadHolds { s with issue := t.issue, warp := { s.warp with splits := t.warp.splits, recon := [] } })) ∧
    (∀ e d, s.warp.recon = [e] → e.deferred = [d] → d.st = .live → e.pending &&& p.mask ≠ 0 →
      (p.rskip = false → e.pending &&& ~~~d.mask &&& ~~~(e.arrived ||| p.mask) = 0 →
        exec .reconv s = .next (State.spreadHolds { s with
          issue := { s.issue with pfx := none, ended := some .taken }
          warp := { s.warp with
            splits := s.warp.splits.setIfInBounds s.issue.sp d
            recon := [{ e with
              arrived := e.arrived ||| p.mask, home := s.issue.sp
              deferred := [{ p with pc := s.issue.pkt, slot := s.issue.next, runLen := 0, st := .atReconv }] }] } })) ∧
      (s.warp.level = .user → s.warp.callParks = [] → goes → e.pending &&& ~~~p.mask ≠ 0 →
        e.pending &&& ~~~p.mask &&& ~~~d.mask &&& ~~~e.arrived = 0 →
        exec .exit s = .next (State.spreadHolds { s with
          issue := { s.issue with pfx := none, ended := some .gone }
          warp := { s.warp with
            splits := s.warp.splits.setIfInBounds s.issue.sp d
            recon := [{ e with pending := e.pending &&& ~~~p.mask, home := s.issue.sp, deferred := [] }] } }))) ∧
    (∀ n : BitVec 4, (∀ e ∈ s.warp.recon, e.deferred = [] ∧ e.pending &&& ~~~p.mask &&& ~~~e.arrived ≠ 0) →
      exec (.leave n) s = .next (State.spreadHolds { past with warp := { s.warp with recon := s.warp.recon.mapIdx fun i e =>
        if ((s.warp.recon.take i).filter fun x => x.pending &&& p.mask ≠ 0).length < n.toNat ∧ e.pending &&& p.mask ≠ 0
          then { e with pending := e.pending &&& ~~~p.mask, home := s.issue.sp } else e } })) ∧
    (s.warp.level = .user →
      let last := (∀ j < 4, j ≠ s.issue.sp → (s.warp.splitAt j).st = .free) ∧ ∀ e ∈ s.warp.recon, e.deferred = []
      (last → (∃ o ∈ s.ops, o.key = s.warp.key) → ∃ t, exec .exit s = .next t ∧ t.issue.ended = some (.waiting .retry) ∧
        t.warp = s.warp.setSplit s.issue.sp { p with wait := some .retry } ∧ t.ops = s.ops) ∧
      (last → (∀ o ∈ s.ops, o.key ≠ s.warp.key) → s.active = true → ∃ t, exec .exit s = .next t ∧ t.issue.ended = some .gone ∧
        ∀ w, t.getWarp s.warp.key = some w → w.exited = true ∧ ∀ j < 4, (w.splitAt j).st = .free) ∧
      (¬last → s.feHeld s.warp s.issue.sp = true → ∃ t, exec .exit s = .next t ∧ t.issue.ended = some (.waiting .retry) ∧
        t.warp = s.warp.setSplit s.issue.sp { p with wait := some .retry } ∧ t.ops = s.ops) ∧
      (¬last → s.feHeld s.warp s.issue.sp = false → (∃ j < 4, (s.warp.splitAt j).st = .atBarrier ∨ (s.warp.splitAt j).atAwait = true) →
        exec .exit s = .next (takeTrap .barrierDivergence s)) ∧
      (¬last → goes → s.warp.callParks = [] →
        (∀ e ∈ s.warp.recon, e.deferred = [] ∧ e.pending &&& ~~~p.mask &&& ~~~e.arrived ≠ 0) →
        exec .exit s = .next (State.spreadHolds { s with
          issue := { s.issue with pfx := none, ended := some .gone }
          warp := { s.warp with
            splits := s.warp.splits.setIfInBounds s.issue.sp Split.none
            recon := s.warp.recon.map fun e => if e.pending &&& p.mask = 0 then e else { e with pending := e.pending &&& ~~~p.mask, home := s.issue.sp } } })))

/-- R137, R55, R193: a covering wait, the prefix latch, the user traps, which take effect after their packet, and words without
an effect.
The model's choices here: assumption 53, and assumption 82, that of two user traps of a packet the first is taken. -/
def Obligations.WaitsAndUserTraps : Prop :=
  ∀ s : State, s.issue.sp < 4 →
    let p := s.warp.splitAt s.issue.sp
    let past : State := { s with issue := { s.issue with pfx := none } }
    let latched (t : Trap) : State := { past with warp := s.warp.setSplit s.issue.sp { p with ptrap := some t } }
    (∀ (c : BitVec 2) (n : BitVec 6),
      let cls : CClass := if c = 0 then .cp else if c = 1 then .gs else if c = 2 then .cl else .ax
      let count := (s.ops.filter fun o => o.key = s.warp.key && o.cls = cls).length
      (count ≤ n.toNat → (∀ f ∈ s.warp.copyFault, f.cls ≠ cls) → exec (.waitc c n) s = .next past) ∧
      (n.toNat < count → ∃ t, exec (.waitc c n) s = .next t ∧ t.issue.ended = some (.waiting .retry) ∧
        t.warp = s.warp.setSplit s.issue.sp { p with wait := some .retry } ∧ t.ops = s.ops) ∧
      (count ≤ n.toNat → ∀ f r, s.warp.copyFault = f :: r → f.cls = cls → exec (.waitc c n) s = .next (takeTrap (.engine f.va) s))) ∧
    (∀ (m : BitVec 3) (z : BitVec 1) (r : BitVec 3) (v : BitVec 6) (u q : BitVec 3),
      exec (.pfx m z r v u q) s = .next { s with issue := { s.issue with pfx := some ⟨m, z, r, v, u, q⟩, pword := s.issue.word } }) ∧
    exec .nop s = .next past ∧
    (∀ i : BitVec 16,
      (p.ptrap = none → s.issue.next < 3 → exec (.trap i) s = .next (latched (.user i))) ∧
      (p.ptrap = none → 3 ≤ s.issue.next → exec (.trap i) s = .next (takeTrap (.user i) s)) ∧
      (p.ptrap ≠ none → exec (.trap i) s = .next past ∧ exec (.brk i) s = .next past) ∧
      (s.ctx.debugging = false → exec (.brk i) s = .next past) ∧
      (s.ctx.debugging = true → p.ptrap = none → s.issue.next < 3 → exec (.brk i) s = .next (latched (.brk i))) ∧
      (s.ctx.debugging = true → p.ptrap = none → 3 ≤ s.issue.next → exec (.brk i) s = .next (takeTrap (.brk i) s)))

/-! ## Barriers -/

/-- R139 to R143, R241, R18: an arrival is recorded and the last one completes the generation, which takes over the next
membership and the arrivals that waited; a second arrival in a generation waits for the next one; a wait ends when the generation in which
the warp arrived is over, with the predicate its ABN; `bsync` does both; `bmemb` sets the next membership; an unallocated barrier and a
warp that is no member trap.
The model's choices here: assumptions 15, 34. -/
def Obligations.Barriers : Prop :=
  ∀ s : State, s.active = true → s.warp.level = .user → s.issue.sp < 4 → (s.warp.splitAt s.issue.sp).st = .live →
    (∀ j < 4, j ≠ s.issue.sp → (s.warp.splitAt j).st = .free) →
    let p := s.warp.splitAt s.issue.sp
    let past : State := { s with issue := { s.issue with pfx := none } }
    let rest (cluster : Bool) (n : Nat) := s.warp.lastArr.filter fun a => !(a.1 = cluster && a.2.1 = n)
    let waits (i : Instr) (w : Wait) : Prop := ∃ t, exec i s = .next t ∧ t.issue.ended = some (.waiting w) ∧ (t.warp.splitAt s.issue.sp).wait = some w ∧ t.blk = s.blk
    let new : Prop := ∀ c m g, p.wait ≠ some (.arriveWait c m g)
    let late (i : Instr) (w : Wait) (blk : Block) (cbars : List CBar) : Prop := exec i s = .next { s with
      issue := { s.issue with pfx := none, ended := some (.waiting w) }
      warp := s.warp.setSplit s.issue.sp { p with wait := some w }, blk := blk, cbars := cbars }
    (∀ n : BitVec 4, s.blk.bars ≤ n.toNat → (new → exec (.arrive n) s = .next (takeTrap .resourceRange s)) ∧
      ∀ k q a, exec (.await k n) s = .next (takeTrap .resourceRange s) ∧ exec (.bmemb q a n) s = .next (takeTrap .resourceRange s)) ∧
    (∀ (n : BitVec 4) (b : Bar), s.blk.barrier[n.toNat]? = some b →
      let bit : Word := 1#32 <<< s.warp.key.rank
      let member := b.mem &&& bit ≠ 0
      let here := (s.warp.lastArr.find? fun a => a.1 = false && a.2.1 = n.toNat)
      let alone := b.wait = 0 ∧ b.waitSeq = false ∧ s.blk.seq.late = none
      let turned : Bar := { b with gen := b.gen + 1, mem := b.nmem, memSeq := b.nmemSeq, arr := b.wait &&& b.nmem, arrSeq := b.waitSeq && b.nmemSeq, wait := 0, waitSeq := false, abn := false }
      let b' : Bar := if b.arr ||| bit = b.mem ∧ b.arrSeq = b.memSeq then turned else { b with arr := b.arr ||| bit }
      let arrived : State := { past with
        warp := { s.warp with lastArr := (false, n.toNat, b.gen, false) :: rest false n.toNat }
        blk := { s.blk with
          barrier := s.blk.barrier.set n.toNat b'
          seq := if b'.gen ≠ b.gen ∧ s.blk.seq.waiting = some (n.toNat, b.gen) then { s.blk.seq with abn := false } else s.blk.seq } }
      (n.toNat < s.blk.bars → ¬member → new → exec (.arrive n) s = .next (takeTrap .resourceRange s)) ∧
      (n.toNat < s.blk.bars → member → new → b.arr &&& bit = 0 → b.abn = false → alone → exec (.arrive n) s = .next arrived) ∧
      (n.toNat < s.blk.bars → member → new → b.arr &&& bit = 0 → b.arr ||| bit = b.mem → b.arrSeq = b.memSeq → b.wait &&& b.nmem ≠ b.nmem →
        ∃ t, exec (.arrive n) s = .next t ∧ t.blk.barrier = s.blk.barrier.set n.toNat turned ∧ t.issue.ended = s.issue.ended) ∧
      (n.toNat < s.blk.bars → member → new → b.arr &&& bit ≠ 0 → (b.arr ≠ b.mem ∨ b.arrSeq ≠ b.memSeq) →
        let blk := { s.blk with barrier := s.blk.barrier.set n.toNat { b with wait := b.wait ||| bit } }
        late (.arrive n) (.arriveWait false n.toNat b.gen) blk s.cbars ∧
        ((∀ m g, p.wait ≠ some (.barrier false m g)) → ∀ k, late (.bsync k n) (.arriveWait false n.toNat b.gen) blk s.cbars)) ∧
      (∀ g, p.wait = some (.arriveWait false n.toNat g) →
        (b.gen = g → ∀ k, ∀ i ∈ ([.arrive n, .bsync k n] : List Instr), waits i (.arriveWait false n.toNat g)) ∧
        (b.gen ≠ g → (∃ a ∈ s.warp.lastArr, a.1 = false ∧ a.2.1 = n.toNat ∧ a.2.2.1 ≠ g) → exec (.arrive n) s = .next past) ∧
        (b.gen ≠ g → (∀ a ∈ s.warp.lastArr, a.1 = false → a.2.1 = n.toNat → a.2.2.1 = g) → exec (.arrive n) s = .next (takeTrap .resourceRange s))) ∧
      (n.toNat < s.blk.bars → ∀ k : BitVec 3,
        (here = none → Gives (.await k n) s s none [pW k.toNat false]) ∧
        (∀ g abn, here = some (false, n.toNat, g, abn) → g ≠ b.gen → Gives (.await k n) s s none [pW k.toNat abn]) ∧
        (∀ abn, here = some (false, n.toNat, b.gen, abn) → waits (.await k n) (.barrier false n.toNat b.gen)) ∧
        (member → b.arr &&& bit = 0 → b.abn = false → p.wait = none → alone →
          (b'.gen ≠ b.gen → Gives (.bsync k n) s { arrived with issue := s.issue } none [pW k.toNat false]) ∧
          (b'.gen = b.gen → ∃ t, exec (.bsync k n) s = .next t ∧ t.issue.ended = some (.waiting (.barrier false n.toNat b.gen)) ∧ t.blk = arrived.blk ∧
            t.warp = arrived.warp.setSplit s.issue.sp { p with wait := some (.barrier false n.toNat b.gen) })) ∧
        (∀ g g' abn, p.wait = some (.barrier false n.toNat g') → here = some (false, n.toNat, g, abn) → g ≠ b.gen → Gives (.bsync k n) s s none [pW k.toNat abn])) ∧
      (∀ (q : BitVec 1) (a : BitVec 7),
        (2 ^ s.blk.nw ≤ (s.U a.toNat).toNat ∨ q = 1 ∧ s.blk.seq.present = false → exec (.bmemb q a n) s = .next (takeTrap .resourceRange s)) ∧
        (n.toNat < s.blk.bars → (s.U a.toNat).toNat < 2 ^ s.blk.nw → (q = 1 → s.blk.seq.present = true) → b.mem &&& ~~~b.arr ≠ 0 →
          (∀ w ∈ s.allWarps, w.key.core = s.blk.core → w.key.slot = s.blk.slot → w.exited = false) →
          exec (.bmemb q a n) s = .next { past with blk := { s.blk with
            barrier := s.blk.barrier.set n.toNat { b with nmem := s.U a.toNat, nmemSeq := decide (q = 1) && !s.blk.seq.ended } } }))) ∧
    (∀ (n : BitVec 2),
      let c := s.fab.clusterOf s.core.id
      let b := s.cbar s.ctx.id c n.toNat
      let here := (s.warp.lastArr.find? fun a => a.1 = true && a.2.1 = n.toNat)
      (s.blk.clusterBars = false → (new → exec (.cbarrive n) s = .next (takeTrap .resourceRange s)) ∧ ∀ k, exec (.cbawait k n) s = .next (takeTrap .resourceRange s)) ∧
      (s.blk.clusterBars = true → s.warp.key ∉ b.mem → new → exec (.cbarrive n) s = .next (takeTrap .resourceRange s)) ∧
      (s.blk.clusterBars = true → s.warp.key ∈ b.mem → new → s.warp.key ∉ b.arr → b.abn = false → b.wait = [] →
        ∃ t, exec (.cbarrive n) s = .next t ∧ t = { past with cbars := t.cbars, warp := { s.warp with lastArr := (true, n.toNat, b.gen, false) :: rest true n.toNat } } ∧
          (∀ x y z, (x, y, z) ≠ (s.ctx.id, c, n.toNat) → t.cbar x y z = s.cbar x y z) ∧
          t.cbar s.ctx.id c n.toNat =
            if ∀ k ∈ b.mem, k ∈ b.arr ∨ k = s.warp.key then { b with gen := b.gen + 1, mem := b.nmem, arr := [], abn := false } else { b with arr := b.arr ++ [s.warp.key] }) ∧
      (s.blk.clusterBars = true → s.warp.key ∈ b.mem → new → s.warp.key ∈ b.arr → (∃ k ∈ b.mem, k ∉ b.arr) →
        ∃ cbars, late (.cbarrive n) (.arriveWait true n.toNat b.gen) s.blk cbars ∧
          (∀ x y z, (x, y, z) ≠ (s.ctx.id, c, n.toNat) → State.cbar { s with cbars := cbars } x y z = s.cbar x y z) ∧
          State.cbar { s with cbars := cbars } s.ctx.id c n.toNat = { b with wait := b.wait ++ [s.warp.key] }) ∧
      (s.blk.clusterBars = true → ∀ k : BitVec 3,
        (here = none → Gives (.cbawait k n) s s none [pW k.toNat false]) ∧
        (∀ g abn, here = some (true, n.toNat, g, abn) → g ≠ b.gen → Gives (.cbawait k n) s s none [pW k.toNat abn]) ∧
        (∀ abn, here = some (true, n.toNat, b.gen, abn) → waits (.cbawait k n) (.barrier true n.toNat b.gen))))

/-! ## Work -/

/-- R145 to R149, R222, R266 to R268: a chunk of a job card, with the signal of the take that empties it and the wait of a chunk that the
item queue has no room for, the deque and the steal mailbox, and lane refill. A signal to another module, or to an entry in transit,
goes into flight.
The model's choices here: assumptions 31, 40, 66, 83, 84, 89, 102, 104. -/
def Obligations.WorkWords : Prop :=
  ∀ (s : State), s.active = true → Memory.wf s = true →
    (∀ (g : BitVec 7) (q : BitVec 1) (pa key : Nat),
      let va := s.UD g.toNat
      let card : Place := .mem pa key
      let word (off n : Nat) : Nat := leNat (s.readPlace (card.byte off) n)
      let remain := word 44 4
      let d := max 1 (word 24 4) * max 1 (word 28 4)
      let c := min remain (max (max 1 (word 20 4)) ((remain + d - 1) / d))
      let name : DWord := BitVec.ofNat 64 (word 32 8)
      let dom : Half := s.warp.name.extractLsb' 48 16
      let result := uPair (g.toNat + 2) (BitVec.ofNat 32 c ++ BitVec.ofNat 32 (word 40 4))
      let items (u : State) : State := if q = 1 then { u with blk := { u.blk with items := u.blk.items ++ (List.range c).map fun i => BitVec.ofNat 32 (word 40 4 + i) } } else u
      let gives (u : State) : Prop := Gives (.jtake g q) s (items u) none result
      let taken (u : State) (left : Nat) : Prop := OnlyAt s u [(card.byte 40, 4), (card.byte 44, 4)] ∧ u.blk = s.blk ∧
        leNat (u.readPlace (card.byte 40) 4) = word 40 4 + c ∧ leNat (u.readPlace (card.byte 44) 4) = left
      (∀ f n, (s.warp.splitAt s.issue.sp).wait ≠ some (.items f n)) → place s (progAccess s.warp.level true true 0) va 64 = .ok card →
      s.poisoned card 64 = false → s.writeBlocked pa = false → s.blk.draining = false → s.inReserve card = false → word 40 4 + c < 2 ^ 32 →
      (remain = 0 → s.blk.items.length ≤ 256 → gives s) ∧
      (c ≠ 0 → c < remain → (q = 1 → s.blk.items.length + c ≤ 256) → ∃ u, taken u (remain - c) ∧ gives u) ∧
      (c ≠ 0 → c < remain → q = 1 → 256 < s.blk.items.length + c → ∃ u, taken u (remain - c) ∧ exec (.jtake g q) s = .next { u with
        issue := { s.issue with pfx := none, ended := some (.waiting (.items (word 40 4) c)) }
        warp := s.warp.setSplit s.issue.sp { s.warp.splitAt s.issue.sp with wait := some (.items (word 40 4) c) } }) ∧
      (c ≠ 0 → c = remain → (q = 1 → s.blk.items.length + c ≤ 256) → ∃ u, taken u 0 ∧
        let flies := gives { u with nextId := u.nextId + 1, sends := u.sends ++ [⟨u.nextId, none, none, 0, .sig 1, name, true, 0, dom, none, none⟩] }
        (name = 0 → gives u) ∧ (name ≠ 0 → u.remote name = true → flies) ∧ (name ≠ 0 → u.remote name = false → u.entry name = none → gives u) ∧
        ∀ e, name ≠ 0 → u.remote name = false → u.entry name = some e →
          let accepted := name.extractLsb' 48 16 = dom ∨ e.opn = true ∨ dom ∈ e.accept.toList.take e.nacc
          (e.st = 4 → flies) ∧ (e.st ≠ 4 → (¬accepted ∨ e.st = 5 ∨ 2 ^ 32 ≤ e.count + 1) → gives u) ∧
          (e.st ≠ 4 → e.st ≠ 5 → e.st ≠ 6 → accepted → e.count + 1 < 2 ^ 32 →
            gives { u with names := { e with count := e.count + 1 } :: u.names.filter fun y => y.name != e.name }))) ∧
    (∀ (g : BitVec 7) (q : BitVec 1) (f n : Nat), (s.warp.splitAt s.issue.sp).wait = some (.items f n) → (q = 1 → s.blk.items.length + n ≤ 256) →
      Gives (.jtake g q) s (if q = 1 then { s with blk := { s.blk with items := s.blk.items ++ (List.range n).map fun i => BitVec.ofNat 32 (f + i) } } else s) none
        (uPair (g.toNat + 2) (BitVec.ofNat 32 n ++ BitVec.ofNat 32 f))) ∧
    (∀ (g : BitVec 7) (off count room : Nat),
      let va := s.UD g.toNat
      let task := s.UD (g.toNat + 2)
      let at_ (o n : Nat) : Nat := leNat (s.readPlace (.scratch s.blk.core s.blk.slot o) n)
      let sound := s.poisoned (.scratch s.blk.core s.blk.slot off) 16 = false
      place s (progAccess s.warp.level true true 0) va 16 = .ok (.scratch s.blk.core s.blk.slot off) → count = at_ off 4 → room = at_ (off + 4) 4 →
      (∀ r, s.core.mailbox.find? (fun x => x.ctx = s.ctx.id) = some r →
        ∃ u, Gives (.jspawn g) s u none [uW (g.toNat + 2) 1] ∧ u.core.mailbox = s.core.mailbox.filter (fun x => !(x = r)) ∧ u.mem = s.mem ∧
          ∀ b, s.getBlk r.core r.slot = some b → u.getBlk r.core r.slot = some { b with inbox := some task, stealPosted := false }) ∧
      (s.core.mailbox.find? (fun x => x.ctx = s.ctx.id) = none → ¬sound → exec (.jspawn g) s = .next (takeTrap (.poison 0xFFFF 0) s)) ∧
      (s.core.mailbox.find? (fun x => x.ctx = s.ctx.id) = none → sound →
        (room ≤ count → Gives (.jspawn g) s s none [uW (g.toNat + 2) 2]) ∧
        (count < room → ∀ x, place s (progAccess s.warp.level true true 0) (va + BitVec.ofNat 64 (16 + 8 * count)) 8 = .ok (.scratch s.blk.core s.blk.slot x) → off + 16 ≤ x →
          ∃ u, OnlyAt s u [(.scratch s.blk.core s.blk.slot x, 8), (.scratch s.blk.core s.blk.slot off, 4)] ∧
            u.readPlace (.scratch s.blk.core s.blk.slot x) 8 = leBytes 8 task.toNat ∧ u.readPlace (.scratch s.blk.core s.blk.slot off) 4 = leBytes 4 (count + 1) ∧
            Gives (.jspawn g) s u none [uW (g.toNat + 2) 0])) ∧
      (∀ p : BitVec 3,
        (∀ t, s.blk.inbox = some t → Gives (.jpop g p) s { s with blk := { s.blk with inbox := none } } none (uPair (g.toNat + 2) t ++ [pW p.toNat true])) ∧
        (s.blk.inbox = none → ¬sound → exec (.jpop g p) s = .next (takeTrap (.poison 0xFFFF 0) s)) ∧
        (s.blk.inbox = none → sound → count = 0 → Gives (.jpop g p) s s none [pW p.toNat false]) ∧
        (s.blk.inbox = none → sound → 0 < count → ∀ x, place s (progAccess s.warp.level true true 0) (va + BitVec.ofNat 64 (16 + 8 * (count - 1))) 8 = .ok (.scratch s.blk.core s.blk.slot x) → off + 16 ≤ x →
          s.poisoned (.scratch s.blk.core s.blk.slot x) 8 = false →
          ∃ u, OnlyAt s u [(.scratch s.blk.core s.blk.slot off, 4)] ∧ u.readPlace (.scratch s.blk.core s.blk.slot off) 4 = leBytes 4 (count - 1) ∧
            Gives (.jpop g p) s u none (uPair (g.toNat + 2) (BitVec.ofNat 64 (at_ x 8)) ++ [pW p.toNat true])))) ∧
    (∀ g : BitVec 7,
      let v := (s.U g.toNat).toNat
      let there := v ≤ 639 ∧ ∃ b ∈ s.allBlks, b.core = v ∧ b.ctx = s.ctx.id ∧ b.life = .resident
      let full := 4 ≤ (s.getCore v).mailbox.length ∨ s.blk.stealPosted = true ∨ s.blk.inbox.isSome = true
      (¬there → Gives (.jsteal g) s s none [uW (g.toNat + 2) 2]) ∧ (there → full → Gives (.jsteal g) s s none [uW (g.toNat + 2) 1]) ∧
      (there → ¬full → ∃ u, Gives (.jsteal g) s u none [uW (g.toNat + 2) 0] ∧ u.blk = { s.blk with stealPosted := true } ∧ u.mem = s.mem ∧
        u.getCore v = { s.getCore v with mailbox := (s.getCore v).mailbox ++ [⟨s.core.id, s.blk.slot, s.ctx.id⟩] })) ∧
    (∀ (v : BitVec 6) (m : BitVec 3),
      let p := s.warp.splitAt s.issue.sp
      let want := lanesOf (s.M m.toNat &&& p.mask)
      let kept := s.kept s.blk.core s.blk.ctx
      let deals (q : List Word) (l : List Write) : Prop := ∃ u, Gives (.lrefill v m) s u none l ∧
        u = { s with blk := { s.blk with items := if kept = [] then q else (q ++ kept).take 256 }, core := u.core, cores := u.cores } ∧
        (kept = [] → u = { s with blk := u.blk }) ∧ u.kept s.blk.core s.blk.ctx = if kept = [] then [] else (q ++ kept).drop 256
      (s.warp.loopHead ≠ s.issue.pkt → exec (.lrefill v m) s = .next (takeTrap (.illegal 3 s.issue.slot) s)) ∧
      (s.warp.loopHead = s.issue.pkt → (∀ f n, p.wait ≠ some (.items f n)) →
        (want = [] → p.mask ≠ 0 → deals s.blk.items [mW m.toNat (s.M m.toNat)]) ∧
        (want ≠ [] → want.length ≤ s.blk.items.length →
          let got := s.M m.toNat &&& p.mask
          deals (s.blk.items.drop want.length)
            [⟨s.warp.vdest v.toNat, got, Vector.ofFn fun l => ((want.zip s.blk.items).lookup l).getD 0⟩, mW m.toNat (s.M m.toNat &&& ~~~got)]) ∧
        (∀ pa key, s.blk.items.length < want.length → s.blk.items ≠ [] → place s (progAccess s.warp.level true true 0) s.blk.card 64 = .ok (.mem pa key) →
          s.poisoned (.mem pa key) 64 = false → s.writeBlocked pa = false → s.blk.draining = false → leNat (s.readPlace (.mem (pa + 44) key) 4) = 0 →
          ∃ got : Word, (∀ l : Fin 32, got.getLsbD l = true ↔ l ∈ want.take s.blk.items.length) ∧
          deals []
            [⟨s.warp.vdest v.toNat, got, Vector.ofFn fun l => ((want.zip s.blk.items).lookup l).getD 0⟩, mW m.toNat (s.M m.toNat &&& ~~~got)]) ∧
        (∀ pa key, s.blk.items = [] → kept = [] → want ≠ [] → p.mask &&& ~~~(s.M m.toNat) = 0 →
          place s (progAccess s.warp.level true true 0) s.blk.card 64 = .ok (.mem pa key) →
          s.poisoned (.mem pa key) 64 = false → s.writeBlocked pa = false → s.blk.draining = false → leNat (s.readPlace (.mem (pa + 44) key) 4) = 0 →
          exec (.lrefill v m) s = exec .exit s)))

/-! ## Copies and operand slots -/

/-- R106, R151, R153 to R158: a copy command is checked and counted when it issues, with its command registers as they stand; a
command of no bytes does nothing; a command that breaks a rule, or names an address that does, raises the address fault; a prefetch has no effect.
The model's choices here: assumptions 39, 85. -/
def Obligations.CopyCommands : Prop :=
  ∀ (s : State) (g : BitVec 7),
    let one := s.U g.toNat
    let three := (s.U (g.toNat + 2)).toNat
    let four := (s.U (g.toNat + 3)).toNat
    let far := s.UD g.toNat
    let sound := addressOk s far 16 = true
    (∀ (a : Access) (va : DWord) (sz : Nat), addressOk s va sz = false ↔ place s a va sz = .error (.trap (.address va))) ∧
    (∀ (d y : BitVec 1) (ss : BitVec 2),
      let off := three % 2 ^ 26
      let rows := if y = 0 then 1 else four / 2 ^ 22 + 1
      let rb := if y = 0 then four else (four / 2 ^ 11 % 2 ^ 11 + 1) * 16
      let stride := if y = 0 then 0 else four % 2 ^ 11 * 16 * 4 ^ ss.toNat
      let cellar := three / 2 ^ 30 = 1
      let valid := sound ∧ three / 2 ^ 30 ≤ 1 ∧ three / 2 ^ 26 % 16 = 0 ∧ off % 16 = 0 ∧ (y = 0 → four % 16 = 0 ∧ four ≤ 2 ^ 24) ∧
        (cellar → s.ctx.cbase ≤ off ∧ off + rows * rb ≤ s.ctx.cbase + s.ctx.csize) ∧ (¬cellar → off < 2 ^ 21 ∧ off + rows * rb ≤ s.blk.part)
      (¬valid → ∃ va, (va = far ∨ va = (s.U (g.toNat + 2)).setWidth 64) ∧ exec (.cpy g d y ss) s = .next (takeTrap (.address va) s)) ∧
      (valid → rows * rb = 0 → Gives (.cpy g d y ss) s s none []) ∧
      (valid → 0 < rows * rb → s.Room .cp →
        Gives (.cpy g d y ss) s (s.issues s.nextId .cp (.cpy (d = 1) far.toNat off cellar rows rb stride) 0 (s.command g)) none [])) ∧
    (let slot := three % 256
     let o := (s.blk.oslot slot).ahead
     let swz := three / 256 % 4
     (¬(sound ∧ three < 1024 ∧ four % 16 = 0) → exec (.cpyo g) s = .next (takeTrap (.address far) s)) ∧
     (sound → three < 1024 → four % 16 = 0 →
       (s.blk.slots ≤ slot → exec (.cpyo g) s = .next (takeTrap .resourceRange s)) ∧
       (slot < s.blk.slots → (s.blk.partner slot = true ∨ o.valid = false) → exec (.cpyo g) s = .next (takeTrap .operandFormat s)) ∧
       (slot < s.blk.slots → s.blk.partner slot = false → o.valid = true → s.Room .cp → s.active = true →
         s.blk.joinPairs = s.blk → (∀ x ∈ s.blk.oslots, x.events = []) → o.readers = 0 → (s.blk.oslot (slot + 1)).readers = 0 →
         ∃ ts, Gives (.cpyo g) s
             (let u := s.issues (s.nextId + 1) .cp (.cpyo far.toNat slot swz four) 0 (s.command g); { u with blk := { u.blk with oslots := ts } }) none [] ∧
           ∀ n, Block.oslot { s.blk with oslots := ts } n =
             if n = slot then { o with data := false, scale := o.scale && !isMx o.hdr, stamp := match o.stamp with | none => some swz | some x => some (if x = swz then x else 4) }
             else s.blk.oslot n))) ∧
    (let at_ (o n : Nat) : Nat := leNat (cellsRead s.blk.scratch (one.toNat + o) n)
     let la := at_ 0 8
     let ra := at_ 8 8
     let len := at_ 20 4
     let valid := one.toNat % 32 = 0 ∧ one.toNat + 32 ≤ s.blk.part ∧ la % 16 = 0 ∧ la < 2 ^ 57 ∧ ra % 16 = 0 ∧ ra < 2 ^ 57 ∧ len % 16 = 0 ∧ len ≤ 2 ^ 24 ∧ at_ 18 2 ≤ 1
     let bulk := (s.ops.filter fun o => o.key.core = s.core.id && !o.done && (match o.kind with | .cpyr .. => true | _ => false)).length
     (¬valid → exec (.cpyr g) s = .next (takeTrap (.address (one.setWidth 64)) s)) ∧
     (valid → 8 ≤ bulk → Gives (.cpyr g) s s none [uW (g.toNat + 3) 1]) ∧
     (valid → bulk < 8 → len = 0 → Gives (.cpyr g) s s none [uW (g.toNat + 3) 0]) ∧
     (valid → bulk < 8 → 0 < len → s.Room .cl →
       Gives (.cpyr g) s (s.issues s.nextId .cl (.cpyr la ra (at_ 16 2) (at_ 18 2 = 1) len) 0 (s.command g)) none [uW (g.toNat + 3) 0])) ∧
    Gives (.cpyp g) s s none []

/-- R159 to R165, R17, R228: a claim gives a slot its record and empties it, a release empties it or frees it, and while an mmac reads
the slot both wait behind it; a status read returns its record, after the warp's earlier claims, releases and fills of the slot, and
a fill by lanes is counted; a slot beyond the allocation and the odd partner of a two-slot record trap.
The model's choices here: assumptions 37, 98, 99. -/
def Obligations.OperandSlots : Prop :=
  ∀ (s : State) (g : BitVec 7), s.active = true →
    let w := s.U g.toNat
    let slot := w.toNat % 256
    let o := s.blk.oslot slot
    let quiet := (∀ x ∈ s.blk.oslots, x.events = []) ∧ s.blk.joinPairs = s.blk
    let unread := o.readers = 0 ∧ (s.blk.oslot (slot + 1)).readers = 0
    let settled := quiet ∧ unread ∧
      ∀ e ∈ s.ops, e.key = s.warp.key → e.done = false → e.cancelled = false → (∀ sl, e.kind.fills = some sl → sl ≠ slot)
    let becomes (i : Instr) (o' : OSlot) (two : Bool) : Prop := ∃ ts, Gives i s { s with blk := { s.blk with oslots := ts } } none [] ∧
      ∀ n, Block.oslot { s.blk with oslots := ts } n = if n = slot then o' else if two = true ∧ n = slot + 1 then
        (if (s.blk.oslot n).claimed then { s.blk.oslot n with claimed := false, hdr := 0, soff := 0, data := false, scale := false, stamp := none }
          else s.blk.oslot n) else s.blk.oslot n
    (s.blk.slots ≤ slot → ∀ u v, ∀ i ∈ ([.oclaim g, .orel g u, .ohdr g, .ofill g v] : List Instr), exec i s = .next (takeTrap .resourceRange s)) ∧
    (slot < s.blk.slots → s.blk.partner slot = true → (∀ v, ∀ i ∈ ([.oclaim g, .ohdr g, .ofill g v] : List Instr), exec i s = .next (takeTrap .operandFormat s)) ∧
      ∀ u, Gives (.orel g u) s s none []) ∧
    (slot < s.blk.slots → s.blk.partner slot = false →
      (settled → becomes (.oclaim g) { o with
        claimed := true, hdr := s.U (g.toNat + 1), soff := s.U (g.toNat + 2), data := false, scale := false, stamp := none }
          (slot % 2 = 0 && twoSlots (s.U (g.toNat + 1)))) ∧
      (0 < o.readers → quiet → becomes (.oclaim g) { o with
          events := [.claim s.nextId (some s.warp.key) (s.U (g.toNat + 1)) (s.U (g.toNat + 2))] } false ∧
        (o.claimed = true → ∀ u, becomes (.orel g u) { o with events := [.release s.nextId (some s.warp.key) (u = 1)] } false)) ∧
      (o.ahead.claimed = false → ∀ u, Gives (.orel g u) s s none []) ∧
      (o.claimed = true → settled → becomes (.orel g 0) { o with data := false, scale := false, stamp := none } false ∧
        becomes (.orel g 1) { o with claimed := false, hdr := 0, soff := 0, data := false, scale := false, stamp := none } false) ∧
      (let bit (b : Bool) (i : Nat) : Nat := if b then 2 ^ i else 0
       let status := bit true 0 + bit o.filled 1 + 4 * (match o.stamp with | some x => x % 4 | none => 0) + bit (o.stamp = some 4) 4 +
         bit (0 < o.readers) 5 + bit o.scale 6 + bit o.valid 7
       let earlier := (∃ e ∈ o.events, e.who = some s.warp.key) ∨
         s.warp.key.core = s.blk.core ∧ s.warp.key.slot = s.blk.slot ∧
           ∃ e ∈ s.ops, e.key = s.warp.key ∧ e.id < s.nextId ∧ e.done = false ∧ e.cancelled = false ∧ e.kind.fills = some slot
       (earlier → ∃ t, exec (.ohdr g) s = .next t ∧ t.issue.ended = some (.waiting .retry)) ∧
       (¬earlier → Gives (.ohdr g) s s none (if o.claimed then uW (g.toNat + 1) o.hdr :: uPair (g.toNat + 2) (BitVec.ofNat 32 status ++ o.soff)
         else uW (g.toNat + 1) 0 :: uPair (g.toNat + 2) 0))) ∧
      (∀ v : BitVec 6,
        let c := w.toNat / 256 % 32
        let sc := w.getLsbD 13
        let fits := 128 * c + 128 ≤ if sc then scaleBytes o.ahead.hdr else imageBytes o.ahead.hdr
        ((o.ahead.valid = false ∨ ¬fits) → exec (.ofill g v) s = .next (takeTrap .operandFormat s)) ∧
        (o.valid = true → quiet → unread → fits → s.Room .cp →
          ∃ ts, Gives (.ofill g v) s
              (let u := s.issues (s.nextId + 1) .cp (.ofill slot c sc (w.getLsbD 14) (s.warp.splitAt s.issue.sp).mask (s.V v.toNat)) 0 (s.command g)
               { u with blk := { u.blk with oslots := ts } }) none [] ∧
            ∀ n, Block.oslot { s.blk with oslots := ts } n =
              if n = slot then { o with data := o.data && sc, scale := o.scale && !sc, stamp := match o.stamp with | none => some 0 | some x => some (if x = 0 then x else 4) }
              else s.blk.oslot n)))

/-! ## Names, messages and streams -/

/-- R173 to R181, R188 to R192, R152, R274, R277, R283, R285, R338: sends find one of eight places or answer BUSY, reads and waits of the
caller's own entry, which a module that holds it answers as it will, a name that runs again once its owner's wait is over, the wait table, posted buffers and receipts, and file requests.
The model's choices here: assumptions 12, 16, 17, 40, 77. -/
def Obligations.NameWords : Prop :=
  ∀ (s : State) (g : BitVec 7), s.issue.sp < 4 →
    let p := s.warp.splitAt s.issue.sp
    let name := s.UD g.toNat
    let three := s.U (g.toNat + 2)
    let four := s.U (g.toNat + 3)
    let sending := (s.sends.filter fun x => x.core = some s.core.id && x.op.isMsg = false).length
    let held := sending + (s.remoteWaits s.core.id).length
    let messages := (s.sends.filter fun x => x.core = some s.core.id && x.op.isMsg = true).length
    let sends (i : Instr) (op : SendOp) (any : Bool) (gen : Half) : Prop :=
      (8 ≤ held → Gives i s s none [uW (g.toNat + 3) 1]) ∧
      (held < 8 → Gives i s { s with sends := s.sends ++ [⟨s.nextId, some s.core.id, some s.warp.key, g.toNat + 3, op, name, any, gen, s.ctx.domain, none, none⟩] } none [uW (g.toNat + 3) 0])
    let away := s.warp.level = .user ∧ s.remote s.warp.name = true
    let own := if s.warp.level = .user then s.entry s.warp.name else none
    let runs (e : NameEntry) : NameEntry := { e with st := if e.st = 2 then 1 else e.st }
    let ready : State := { s with warp := s.warp.setSplit s.issue.sp { p with wait := none } }
    let woken : State := { ready with names := match own with | some e => runs e :: s.names.filter fun x => x.name != e.name | none => s.names }
    let room (n : DWord) := s.remoteRoom n = true
    let waits (i : Instr) (w : Wait) (t : State) : Prop := exec i s = .next t ∧ t.issue.ended = some (.waiting w) ∧
      t.warp = s.warp.setSplit s.issue.sp { p with wait := some w }
    (∀ a, sends (.nsig g a) (.sig three.toNat) (a = 1) (four.setWidth 16) ∧ sends (.nwake g a) .wake (a = 1) (four.setWidth 16)) ∧
    (∀ k n, sends (.ndep g k n) (.dep k.toNat (s.UD (g.toNat + 2)) (n = 1)) true 0) ∧
    (∀ n, room n ↔ s.routed n = true ∧ sending + ((s.remoteWaits s.core.id).takeWhile fun x => x != (s.warp.key, s.issue.sp)).length < 8) ∧
    (away →
      (¬room s.warp.name → ∀ k c q, ∀ i ∈ ([.nrd g k c, .nself g, .mstat g q] : List Instr), ∃ t, waits i .retry t) ∧
      (room s.warp.name →
        (∀ k c, Gives (.nrd g k c) s { s with tick := s.tick + 2 } none (uPair (g.toNat + 2) s.remoteValue)) ∧
        Gives (.nself g) s { s with tick := s.tick + 2 } none [uW (g.toNat + 3) (s.remoteValue.setWidth 32)] ∧
        ∀ q : BitVec 3, (s.remoteReceipt = none → Gives (.mstat g q) s { s with tick := s.tick + 6 } none [pW q.toNat false]) ∧
          ∀ r, s.remoteReceipt = some r → Gives (.mstat g q) s { s with tick := s.tick + 6 } none
            (uPair g.toNat (r.status ++ r.id) ++ uPair (g.toNat + 2) ((r.domain ++ r.tag) ++ r.len) ++ [pW q.toNat true])) ∧
      ∀ mn wk w, p.wait = none ∧ mn = three ∧ wk = decide (w = 1) ∨ p.wait = some (.nwait mn wk) →
        let st := s.remoteAnswer s.warp.name
        (¬room s.warp.name ∨ (st ≠ 0 ∧ st ≠ 15 ∧ ¬(wk = true ∧ st = 6)) → ∃ t, waits (.nwait g w) (.nwait mn wk) t) ∧
        (room s.warp.name → st = 15 → Gives (.nwait g w) s { ready with tick := s.tick + 2 } none [uW (g.toNat + 3) 15]) ∧
        (room s.warp.name → st = 0 ∨ wk = true ∧ st = 6 →
          Gives (.nwait g w) s { ready with tick := s.tick + 2 } none (uPair (g.toNat + 2) (st ++ Config.remoteStatus (s.tick + 1))))) ∧
    (own = none → ¬away → Gives (.nself g) s s none [uW (g.toNat + 3) 0] ∧ (∀ q, Gives (.mstat g q) s s none [pW q.toNat false]) ∧
      ((∀ k c, Gives (.nrd g k c) s s none (uPair (g.toNat + 2) 0)) ∧
        (p.wait = none → ∀ w, Gives (.nwait g w) s s none [uW (g.toNat + 3) 15]) ∧
        ∀ mn wk, p.wait = some (.nwait mn wk) → ∀ w, Gives (.nwait g w) s ready none [uW (g.toNat + 3) 15])) ∧
    (∀ e, own = some e → ¬away →
      let put (e' : NameEntry) (u : State) : State := { u with names := e' :: s.names.filter fun x => x.name != e.name }
      (∀ (k : BitVec 2) c, Gives (.nrd g k c) s (if c = 1 then put { e with dep := e.dep.setIfInBounds k.toNat 0 } s else s) none
        (uPair (g.toNat + 2) ((e.dep[k.toNat]?).getD 0))) ∧
      (p.wait = none → three.toNat ≤ e.count → ∀ w, Gives (.nwait g w) s (put { e with count := e.count - three.toNat } s) none
        (uPair (g.toNat + 2) (0#32 ++ BitVec.ofNat 32 (e.count - three.toNat)))) ∧
      (p.wait = none → e.count < three.toNat → e.wake = true → Gives (.nwait g 1) s (put { e with wake := false } s) none
        (uPair (g.toNat + 2) (6#32 ++ BitVec.ofNat 32 e.count))) ∧
      (p.wait = none → e.count < three.toNat → (∃ t, waits (.nwait g 0) (.nwait three false) t) ∧
        (e.wake = false → ∃ t, waits (.nwait g 1) (.nwait three true) t)) ∧
      (∀ mn wk, p.wait = some (.nwait mn wk) → ∀ w,
        (mn.toNat ≤ e.count → Gives (.nwait g w) s (put (runs { e with count := e.count - mn.toNat }) ready) none
          (uPair (g.toNat + 2) (0#32 ++ BitVec.ofNat 32 (e.count - mn.toNat)))) ∧
        (e.count < mn.toNat → wk = true → e.wake = true → Gives (.nwait g w) s (put (runs { e with wake := false }) ready) none
          (uPair (g.toNat + 2) (6#32 ++ BitVec.ofNat 32 e.count))) ∧
        (e.count < mn.toNat → (wk && e.wake) = false → ∃ t, waits (.nwait g w) (.nwait mn wk) t)) ∧
      Gives (.nself g) s (put { e with
        nacc := min 4 (three.toNat % 8), opn := three.getLsbD 3
        accept := #v[name.extractLsb' 0 16, name.extractLsb' 16 16, name.extractLsb' 32 16, name.extractLsb' 48 16] } s) none [uW (g.toNat + 3) (e.gen.setWidth 32)] ∧
      (∀ q : BitVec 3, (e.receipts = [] → Gives (.mstat g q) s s none [pW q.toNat false]) ∧
        ∀ r rest, e.receipts = r :: rest → Gives (.mstat g q) s (put { e with receipts := rest } s) none
          (uPair g.toNat (r.status ++ r.id) ++ uPair (g.toNat + 2) ((r.domain ++ r.tag) ++ r.len) ++ [pW q.toNat true]))) ∧
    (p.wait = none → ∀ st, (s.remote name = false → s.entry name = none ∧ st = 15#32 ∨
        ∃ e, s.entry name = some e ∧ (e.gen ≠ four.setWidth 16 ∧ st = 3#32 ∨ e.gen = four.setWidth 16 ∧ e.st = 5 ∧ st = 0)) →
      s.remote name = false → Gives (.njoin g) s s none [uW (g.toNat + 3) st]) ∧
    (∀ e, p.wait = none → s.remote name = false → s.entry name = some e → e.gen = four.setWidth 16 → e.st ≠ 5 →
      ∃ t, waits (.njoin g) (.njoin name (four.setWidth 16)) t) ∧
    (∀ other gen, p.wait = some (.njoin other gen) → s.remote other = false → (∀ e, s.entry other = some e → e.gen = gen → e.st = 5 →
        Gives (.njoin g) s woken none [uW (g.toNat + 3) 0]) ∧
      (∀ e, s.entry other = some e → e.gen = gen → e.st ≠ 5 → ∃ t, waits (.njoin g) (.njoin other gen) t) ∧
      (s.entry other = none → Gives (.njoin g) s woken none [uW (g.toNat + 3) 15]) ∧
      ∀ e, s.entry other = some e → e.gen ≠ gen → Gives (.njoin g) s woken none [uW (g.toNat + 3) 3]) ∧
    (p.wait = some .joined → Gives (.njoin g) s woken none [uW (g.toNat + 3) 0]) ∧
    (s.remote name = true → p.wait = none →
      let st := s.remoteAnswer name
      (¬room name ∨ (st ≠ 0 ∧ st ≠ 15 ∧ st ≠ 3) → ∃ t, waits (.njoin g) (.njoin name (four.setWidth 16)) t) ∧
      (room name → st = 0 ∨ st = 15 ∨ st = 3 → Gives (.njoin g) s { s with tick := s.tick + 1 } none [uW (g.toNat + 3) st])) ∧
    (∀ x : BitVec 1, ∀ pl,
      let sz := if x = 1 then 8 else 4
      let want := if x = 1 then (s.UD (g.toNat + 2)).toNat else three.toNat
      (p.wait = some (.wwait true) → Gives (.wwait g x) s woken none [uW (g.toNat + 3) 6]) ∧
      ((∀ w, p.wait ≠ some (.wwait w)) → (2 ^ 57 ≤ name.toNat ∨ name.toNat % sz ≠ 0) → exec (.wwait g x) s = .next (takeTrap (.address name) s)) ∧
      ((∀ w, p.wait ≠ some (.wwait w)) → name.toNat < 2 ^ 57 → name.toNat % sz = 0 → place s (progAccess s.warp.level true false 0) name sz = .ok pl → s.poisoned pl sz = false →
        (leNat (s.readPlace pl sz) ≠ want → Gives (.wwait g x) s s none [uW (g.toNat + 3) 7]) ∧
        (leNat (s.readPlace pl sz) = want → 8192 ≤ s.wtab.length → Gives (.wwait g x) s s none [uW (g.toNat + 3) 8]) ∧
        (leNat (s.readPlace pl sz) = want → s.wtab.length < 8192 →
          ∃ t, waits (.wwait g x) (.wwait false) t ∧ t.wtab = s.wtab ++ [⟨s.nextId, s.ctx.id, name, some s.warp.key, 0, s.issue.sp⟩]))) ∧
    (name.toNat < 2 ^ 57 → name.toNat % 4 = 0 →
      let ws := s.wtab.filter fun e => e.ctx = s.ctx.id && e.va = name
      ∃ u, Gives (.wwake g) s u none [uW (g.toNat + 3) (BitVec.ofNat 32 (if three.toNat = 2 ^ 32 - 1 then ws.length else min three.toNat ws.length))] ∧
        u.wtab = (s.wtab.filter fun e => !((if three.toNat = 2 ^ 32 - 1 then ws else ws.take three.toNat).any fun x => x.id = e.id)) ∧
        u.names = s.names ∧ u.cellar = s.cellar ∧ u.ops = s.ops ∧ u.blk = s.blk) ∧
    (let valid := name.toNat % 16 = 0 ∧ name.toNat + three.toNat ≤ 2 ^ 57 ∧ 1 ≤ three.toNat ∧ three.toNat ≤ 4096 ∧ three.toNat % 16 = 0
     (¬valid → exec (.mpost g) s = .next (takeTrap (.address name) s)) ∧
     (valid → away → ¬room s.warp.name → ∃ t, waits (.mpost g) .retry t) ∧
     (valid → away → room s.warp.name → Gives (.mpost g) s { s with tick := s.tick + 1 } none [uW (g.toNat + 2) (s.remoteAnswer s.warp.name)]) ∧
     (valid → ¬away → own = none → Gives (.mpost g) s s none [uW (g.toNat + 2) 15]) ∧
     (valid → ¬away → ∀ e, own = some e → (8 ≤ e.posts.length → Gives (.mpost g) s s none [uW (g.toNat + 2) 8]) ∧
       (e.posts.length < 8 → Gives (.mpost g) s { s with names := ({ e with posts := e.posts ++ [⟨name, three.toNat, four⟩] } : NameEntry) :: s.names.filter fun x => x.name != e.name }
         none [uW (g.toNat + 2) 0]))) ∧
    (let off := three.toNat
     let len := four.toNat % 2 ^ 13
     let valid := off % 16 = 0 ∧ len ≤ 4096 ∧ four.toNat / 2 ^ 13 % 8 = 0 ∧ off + len ≤ s.blk.part
     let busy := 8 ≤ messages ∨ s.bounceFull = true
     (¬valid → exec (.msend g) s = .next (takeTrap (.address (three.setWidth 64)) s)) ∧
     (valid → busy → Gives (.msend g) s s none [uW (g.toNat + 3) 1]) ∧
     (valid → ¬busy → s.Room .cl → Gives (.msend g) s
       (let u := s.issues (s.nextId + 1) .cl (.msend s.nextId) 0 (s.command g)
        { u with sends := s.sends ++ [⟨s.nextId, some s.core.id, some s.warp.key, g.toNat + 3,
          .msg len (BitVec.ofNat 16 (four.toNat / 2 ^ 16)) (cellsRead s.blk.scratch off len)
            ((List.range ((len + 15) / 16)).map fun i => s.poisoned (.scratch s.blk.core s.blk.slot (off + 16 * i)) 16),
          name, true, 0, s.ctx.domain, none, none⟩] }) none [uW (g.toNat + 3) 0])) ∧
    (∀ k : BitVec 2,
      let off := (s.U g.toNat).toNat
      let busy := 8 ≤ messages ∨ s.bounceFull = true
      (¬(off % 32 = 0 ∧ off + 32 ≤ s.blk.part) → exec (.fsreq g k) s = .next (takeTrap (.address ((s.U g.toNat).setWidth 64)) s)) ∧
      (off % 32 = 0 → off + 32 ≤ s.blk.part → busy → Gives (.fsreq g k) s s none [uW (g.toNat + 3) 1]) ∧
      (off % 32 = 0 → off + 32 ≤ s.blk.part → ¬busy → Gives (.fsreq g k) s { s with sends := s.sends ++
        [⟨s.nextId + 1, some s.core.id, none, 0, .msg 40 Config.fileTag (cellsRead s.blk.scratch off 28 ++ leBytes 4 k.toNat ++ leBytes 8 s.warp.name.toNat)
          [s.poisoned (.scratch s.blk.core s.blk.slot off) 16, s.poisoned (.scratch s.blk.core s.blk.slot (off + 16)) 16], s.ctx.service, true, 0, s.ctx.domain, none, none⟩] } none [uW (g.toNat + 3) 0]))

/-- R182 to R187, R302, R305, R307, R308: a stream operation finds one of eight places or answers BUSY, an unknown stream or source
gives ABSENT when it is resolved; `swin` describes the running activation. -/
def Obligations.StreamWords : Prop :=
  ∀ (s : State) (g : BitVec 7),
    let sel := (s.U g.toNat).toNat
    let n := sel % 256
    let src := sel / 256 % 16
    let pair := s.UD (g.toNat + 2)
    let flying := (s.sops.filter fun x => x.2.1.core = s.core.id).length
    let issue (i : Instr) (op : StreamOp) : Prop :=
      (8 ≤ flying → Gives i s s none [uW g.toNat 1]) ∧ (flying < 8 → Gives i s { s with sops := s.sops ++ [(s.nextId, s.warp.key, s.ctx.id, op)] } none [uW g.toNat 0])
    let known := sel < 4096 ∧ ∃ x, s.streams.find? (fun y => y.n = n) = some x ∧ x.ctx = s.ctx.id ∧ ∃ q ∈ x.sources, q.n = src
    (∀ v : BitVec 6,
      let payload : VReg := Vector.ofFn fun l => if (s.warp.splitAt s.issue.sp).mask.getLsbD l then (s.V v.toNat)[l] else 0
      (known → issue (.srec g v) (.srec n src (s.U (g.toNat + 1)) pair.toNat payload)) ∧ (¬known → issue (.srec g v) .absent)) ∧
    (known → issue (.swm g) (.swm n src pair.toNat) ∧ issue (.sidle g) (.sidle n src)) ∧ (¬known → issue (.swm g) .absent ∧ issue (.sidle g) .absent) ∧
    (let here := sel < 256 ∧ ∃ x, s.streams.find? (fun y => y.n = sel) = some x ∧ x.ctx = s.ctx.id
     (here → issue (.sdone g) (.sdone sel (s.U (g.toNat + 1)).toNat)) ∧ (¬here → issue (.sdone g) .absent)) ∧
    (let bound := s.streams.find? fun x => x.launch = some s.blk.launch && x.ctx = s.ctx.id
     (∀ x, bound = some x → issue (.spub g) (.spub (sel % 65536) (s.U (g.toNat + 1)) pair false x.n) ∧ issue (.samend g) (.spub (sel % 65536) (s.U (g.toNat + 1)) pair true x.n)) ∧
     (bound = none → issue (.spub g) .absent ∧ issue (.samend g) .absent)) ∧
    (s.blk.act = none → Gives (.swin g) s s none [uW g.toNat 14] ∧ ∀ v, Gives (.swinL g v) s s none [uW g.toNat 14]) ∧
    (∀ a, s.blk.act = some a →
      (∀ x, s.streams.find? (fun y => y.n = a.stream) = some x →
        Gives (.swin g) s s none (uPair g.toNat (BitVec.ofNat 32 a.window ++ BitVec.ofNat 32 (a.stream + if a.amend then 256 else 0)) ++
          uPair (g.toNat + 2) (BitVec.ofNat 64 (a.window * x.slide)))) ∧
      (a.amend = false → ∀ v, Gives (.swinL g v) s s none [uW g.toNat 14]) ∧
      (a.amend = true → ∀ v : BitVec 6, Gives (.swinL g v) s s none (uW (g.toNat + 1) a.key :: uPair (g.toNat + 2) a.time ++
        [⟨s.warp.vdest v.toNat, (s.warp.splitAt s.issue.sp).mask, Vector.ofFn fun l => (a.payload[l.val]?).getD 0⟩])))

/-! ## Firmware -/

/-- R194 to R202, R294, R335: the return from a handler, the halt of a context, the drain of its copies with its log, snapshots, spills
and fills, the logical map and the TLB, all at firmware level.
The model's choices here: assumptions 24, 25, 42, 48, 49, 51, 74, 101. -/
def Obligations.FirmwareWords : Prop :=
  ∀ s : State, s.warp.level = .firmware → s.active = true → s.issue.sp < 4 →
    let p := s.warp.splitAt s.issue.sp
    (∀ v, s.core.handling = some v → s.warp.key = ⟨s.core.id, 4, 0⟩ → v.key ≠ s.warp.key →
      let resume := BitVec.ofNat 64 (s.rdN (v.addr + 16) 8)
      (s.rdN (v.addr + 7) 1 % 2 = 0 → v.seq = false → resume.toNat % 12 = 0 → ∀ w, s.warps.find? (fun x => x.key = v.key) = some w →
        let q : Split := if (w.splitAt v.sp).pc = resume then w.splitAt v.sp else
          { w.splitAt v.sp with pc := resume, slot := 0, runLen := 0, wait := none, ptrap := none, begun := 0 }
        ∃ t, exec .rte s = .next t ∧ t.issue.ended = some .gone ∧ t.mem = s.mem ∧ t.getWarp s.warp.key = none ∧ (t.getCore s.core.id).handling = none ∧
          t.getWarp v.key = some { w with halted := false, splits := w.splits.setIfInBounds v.sp q }) ∧
      (s.rdN (v.addr + 7) 1 % 2 = 0 → v.seq = true → v.key.slot < 4 → ∀ b, s.getBlk v.key.core v.key.slot = some b →
        ∃ t, exec .rte s = .next t ∧ t.issue.ended = some .gone ∧ t.mem = s.mem ∧ (t.getCore s.core.id).handling = none ∧
          t.getBlk v.key.core v.key.slot = some { b with seq := { b.seq with stopped := false, pc := resume } }) ∧
      (s.rdN (v.addr + 7) 1 % 2 = 0 → v.seq = false → resume.toNat % 12 ≠ 0 → exec .rte s = .next (takeTrap (.illegal 10 s.issue.slot) s)) ∧
      (s.rdN (v.addr + 7) 1 % 2 = 1 → ∃ t, exec .rte s = .next t ∧ t.issue.ended = some .gone ∧ ∀ c, t.getCtx v.ctx = some c → c.live = false ∧ c.pre = .lost)) ∧
    ((∀ c ∈ s.allCores, ∀ k sp, some (k, sp) ∈ c.ports.toList → s.runsFor s.ctx.id k = false) →
      exec .hbcast s = .next { s with issue := { s.issue with pfx := none }, ctx := { s.ctx with halted := true } }) ∧
    ((∃ c ∈ s.allCores, ∃ k sp, some (k, sp) ∈ c.ports.toList ∧ s.runsFor s.ctx.id k = true) →
      ∃ t, exec .hbcast s = .next t ∧ t.ctx = { s.ctx with halted := true } ∧ t.issue.ended = some (.waiting .retry)) ∧
    (∀ a d : BitVec 7,
      let copies := s.ops.filter fun o => o.ctx = s.ctx.id && o.key != ⟨s.core.id, 4, 0⟩ &&
        (match o.kind with | .cpy .. => true | .cpyo .. => true | .cpyr .. => true | .wsnap .. => true | _ => false) && decide (o.id < s.core.drainFrom)
      let log := copies.flatMap fun o => leBytes 2 o.key.core ++ leBytes 1 o.wslot ++ leBytes 1 (if o.cls = .cl then 1 else 0) ++
        leBytes 4 (if o.cancelled then 1 else 0) ++ leBytes 8 o.off ++ (o.cmd.toList.flatMap fun w => leBytes 4 w.toNat)
      (s.core.drainUntil = none → ∃ t, exec (.drain a d) s = .next t ∧ t.issue.ended = some (.waiting .retry) ∧
        t.core = { s.core with drainUntil := some (s.wall + 38000), drainFrom := s.nextId } ∧ t.ops = s.ops ∧ t.mem = s.mem) ∧
      (s.core.drainUntil ≠ none → (∃ o ∈ copies, o.done = false ∧ o.cancelled = false) → ∃ t, exec (.drain a d) s = .next t ∧
        t.issue.ended = some (.waiting .retry) ∧ t.core = s.core ∧ t.ops = s.ops ∧ t.mem = s.mem) ∧
      (s.core.drainUntil ≠ none → (∀ o ∈ copies, o.done = true ∨ o.cancelled = true) → p.wait = some .retry → Memory.wf s = true → ∀ pa key,
        (∀ i < 32 * copies.length, s.inReserve (.mem (pa + i) key) = false) →
        (∀ u, OnlyAt s u [(.mem pa key, 32 * copies.length)] → ∀ i < 4 * copies.length,
          place u (progAccess .firmware false true 0) (s.UD a.toNat + BitVec.ofNat 64 (8 * i)) 8 = .ok (.mem (pa + 8 * i) key)) →
        ∃ u t, OnlyAt s u [(.mem pa key, 32 * copies.length)] ∧ u.readMem key pa (32 * copies.length) = log ∧ exec (.drain a d) s = .next t ∧
          t = { u with core := t.core, ops := t.ops, warp := t.warp, issue := t.issue, nextId := t.nextId } ∧
          t.core = { s.core with drainUntil := none, drainFrom := 0 } ∧
          t.ops = ((s.ops.filter fun o => !(copies.map (·.id)).contains o.id).map fun o => if o.ctx = s.ctx.id && o.key.slot != 4 then { o with cls := .none } else o) ∧
          t.warp.settleAll = ((s.warp.setSplit s.issue.sp { p with wait := none }).settleAll.writes [uW d.toNat (BitVec.ofNat 32 copies.length)]))) ∧
    (∀ (a b : BitVec 7) (k : BitVec 2),
      let sel := (s.U b.toNat).toNat
      let bytes := s.snapPart s.core.id (sel / 64 % 4) (sel % 64) k.toNat
      s.Room .cp → Gives (.wsnap a b k) s (s.issues (s.nextId + 1) .cp (.wsnap (s.UD a.toNat).toNat bytes (s.snapBad s.core.id (sel / 64 % 4) k.toNat) b.toNat s.nextId) 0) none [uW b.toNat (BitVec.ofNat 32 bytes.length)]) ∧
    (s.Room .ax → ∀ (r : BitVec 6) (n : BitVec 10),
      Gives (.accspl r n) s (s.issues s.nextId .ax (.accspl n.toNat (s.UD (2 * r.toNat)).toNat) 0) none [] ∧
      Gives (.accfil r n) s (s.issues s.nextId .ax (.accfil n.toNat (s.UD (2 * r.toNat)).toNat) 0) none []) ∧
    (∀ (a : BitVec 7) (q : BitVec 3),
      let logical := (s.U a.toNat).toNat % 1024
      let physical := (s.U (a.toNat + 1)).toNat
      let ok := logical < 640 ∧ physical < 756 ∧ (((s.fab.harvest[physical / 36]?).getD 0).getLsbD (physical % 36)) = false ∧
        ∀ b ∈ s.allBlks, b.life = .resident → s.fab.clusterOf b.core ≠ s.fab.clusterOf logical
      let flying := ∃ o ∈ s.ops, o.onCore logical = true
      (ok → flying → ∃ t, exec (.mapset a q) s = .next t ∧ t.issue.ended = some (.waiting .retry) ∧ t.fab = s.fab) ∧
      (ok → ¬flying → Gives (.mapset a q) s { s with fab := { s.fab with map := s.fab.map.set logical physical } } none [pW q.toNat true]) ∧
      (¬ok → Gives (.mapset a q) s s none [pW q.toNat false]) ∧
      (let kept := s.tlb.filter fun x => !(
        if q = 0 then x.covers s.ctx.root (s.UD a.toNat).toNat else if q = 1 then decide (x.root = s.ctx.root)
        else if q = 2 then decide (x.leaf / 2 ^ 52 % 2048 = (s.UD a.toNat).toNat % 2048) else true)
       let translated := ∃ o ∈ s.ops, o.done = false ∧ ((∃ sz pid ps, o.kind = .gather sz pid ps) ∨ ∃ sz fs xs, o.kind = .scatter sz fs xs)
       (¬translated → Gives (.tlbinv a q) s { s with tlb := kept } none []) ∧
       (translated → ∃ t, exec (.tlbinv a q) s = .next t ∧ t.tlb = kept ∧ t.issue.ended = some (.waiting .retry))))

/-! ## The matrix sequencer -/

/-- R59, R60, R166 to R172: the words of the matrix stream: counters, modes, jumps inside the section, an mmac that starts in the
array with its checks and pairings, releases, tile clears, barriers, where a second arrival waits for the next generation, and the end.
The model's choices here: assumptions 15, 37, 98. -/
def Obligations.MatrixWords : Prop :=
  ∀ s : State, s.active = true →
    let q := s.blk.seq
    let on (q' : Seq) : Seq := { q' with pc := q.pc + 4, nextAt := s.clock + 1 }
    let after (b : Block) : State := { s with issue := { s.issue with pfx := none }, blk := b }
    let waits (i : Instr) : Prop := exec i s = .next { s with issue := { s.issue with pfx := none, ended := some (.waiting .retry) } }
    let slot (n : Nat) := s.blk.oslot n
    let settled := (∀ x ∈ s.blk.oslots, x.events = []) ∧ s.blk.joinPairs = s.blk
    let drained := q.flights = [] ∧ ∀ x ∈ s.blk.oslots, ∀ e ∈ x.events, e.who ≠ none
    let bar (b : Bar) : Bar := if b.arr = b.mem ∧ b.arrSeq = b.memSeq ∧ (b.mem ≠ 0 ∨ b.memSeq = true ∨ b.nmem ≠ 0 ∨ b.nmemSeq = true)
      then { b with gen := b.gen + 1, mem := b.nmem, memSeq := b.nmemSeq, arr := b.wait &&& b.nmem, arrSeq := b.waitSeq && b.nmemSeq, wait := 0, waitSeq := false, abn := false } else b
    exec .mnop s = .next (after { s.blk with seq := on q }) ∧
    (∀ n i, exec (.mset n i) s = .next (after { s.blk with seq := on { q with c := q.c.setIfInBounds n.toNat i } })) ∧
    (∀ m, exec (.msetMode m) s = .next (after { s.blk with seq := on { q with sat := decide (m = 1) } })) ∧
    (∀ n : BitVec 3, exec (.mdec n) s = .next (after { s.blk with seq := on { q with
      c := q.c.setIfInBounds n.toNat (BitVec.ofNat 16 (((q.c[n.toNat]?).getD 0).toNat - 1)) } })) ∧
    (∀ (d : BitVec 23) (n : BitVec 3),
      let target := q.pc + d.signExtend 64
      let fair := d.toNat % 4 = 0 ∧ 0 ≤ (q.pc.toNat : Int) + d.toInt ∧ q.base.toNat ≤ target.toNat ∧ (q.len ≠ 0 → target.toNat < q.base.toNat + q.len)
      let jumps (i : Instr) (c : Bool) : Prop := exec i s = .next (after { s.blk with seq := if c then { on q with pc := target } else on q })
      (¬fair → ∀ i ∈ ([.mbnz n d, .mbstAb d, .mbstNab d, .mjmp d] : List Instr), exec i s = .next (seqTrap (.illegal 10 0) s)) ∧
      (fair → jumps (.mbnz n d) (decide ((q.c[n.toNat]?).getD 0 ≠ 0)) ∧ jumps (.mbstAb d) q.abn ∧ jumps (.mbstNab d) (!q.abn) ∧ jumps (.mjmp d) true)) ∧
    (∀ (t : BitVec 10) (a b : BitVec 8),
      let x := slot a.toNat
      let y := slot b.toNat
      let F := hdrFmt x.hdr
      let G := hdrFmt y.hdr
      let pairs := (F = 0 ∧ G = 0) ∨ (F = 1 ∧ G = 1) ∨ (F ∈ [2, 3] ∧ G ∈ [2, 3]) ∨ (F ∈ [4, 5] ∧ G ∈ [4, 5]) ∨ (F ∈ [6, 7, 8] ∧ G ∈ [6, 7, 8]) ∨
        (F ∈ [9, 10] ∧ G ∈ [9, 10] ∧ x.hdr.getLsbD 10 = false ∧ y.hdr.getLsbD 10 = false) ∨ (F = 11 ∧ G ∈ [9, 10] ∧ y.hdr.getLsbD 10 = true) ∨
        (F ∈ [9, 10] ∧ G = 11 ∧ x.hdr.getLsbD 10 = true)
      let turned := x.hdr.getLsbD 4 = y.hdr.getLsbD 4 ∧ (x.hdr.getLsbD 4 = true → x.hdr.extractLsb' 5 3 = y.hdr.extractLsb' 5 3)
      let inRange := t.toNat < s.blk.acc ∧ a.toNat < s.blk.slots ∧ b.toNat < s.blk.slots
      let owner := s.core.accown = BitVec.ofNat 3 (4 + s.blk.slot)
      let legal := s.blk.partner a.toNat = false ∧ s.blk.partner b.toNat = false ∧ x.valid = true ∧ y.valid = true ∧ pairs ∧ turned ∧
        (s.blk.tile t.toNat).int = decide (9 ≤ F)
      let full := x.filled = true ∧ y.filled = true
      let stamps := x.stamp = some (x.hdr.toNat / 256 % 4) ∧ y.stamp = some (y.hdr.toNat / 256 % 4)
      let started : Seq := on { q with number := (q.number + 1) % 16, arrayFree := s.clock + 16, flights := q.flights ++ [⟨s.clock + 15, t.toNat, a.toNat, b.toNat, q.sat, q.number⟩] }
      (¬inRange → ∀ i ∈ ([.mmac t a b, .mmact t a b] : List Instr), exec i s = .next (seqTrap .resourceRange s)) ∧
      (inRange → s.core.accBusy = true → ∀ i ∈ ([.mmac t a b, .mmact t a b] : List Instr), waits i) ∧
      (inRange → s.core.accBusy = false → ¬owner → ∀ i ∈ ([.mmac t a b, .mmact t a b] : List Instr), exec i s = .next (seqTrap .accFirstUse s)) ∧
      (inRange → s.core.accBusy = false → owner → ¬legal → ∀ i ∈ ([.mmac t a b, .mmact t a b] : List Instr), exec i s = .next (seqTrap .operandFormat s)) ∧
      (inRange → s.core.accBusy = false → owner → legal → ¬full → ∀ i ∈ ([.mmac t a b, .mmact t a b] : List Instr), waits i) ∧
      (inRange → s.core.accBusy = false → owner → legal → full → ¬stamps → ∀ i ∈ ([.mmac t a b, .mmact t a b] : List Instr), exec i s = .next (seqTrap .operandFormat s)) ∧
      (inRange → s.core.accBusy = false → owner → legal → full → stamps → s.clock < q.arrayFree → ∀ i ∈ ([.mmac t a b, .mmact t a b] : List Instr), waits i) ∧
      (inRange → s.core.accBusy = false → owner → legal → full → stamps → q.arrayFree ≤ s.clock →
        (∃ ts, exec (.mmac t a b) s = .next (after { s.blk with oslots := ts, seq := started }) ∧
          ∀ n, Block.oslot { s.blk with oslots := ts } n = if n = a.toNat ∨ n = b.toNat then { slot n with readers := (slot n).readers + 1 } else slot n) ∧
        (settled → ∃ ts id, exec (.mmact t a b) s = .next { after { s.blk with oslots := ts, seq := started } with nextId := id } ∧
          ∀ n, ∃ e, Block.oslot { s.blk with oslots := ts } n =
            if n = a.toNat ∨ n = b.toNat then { slot n with readers := (slot n).readers + 1, events := [.release e none false] } else slot n))) ∧
    (∀ (t : BitVec 10) (y : BitVec 1),
      let owner := s.core.accown = BitVec.ofNat 3 (4 + s.blk.slot)
      (s.blk.acc ≤ t.toNat → exec (.mzero t y) s = .next (seqTrap .resourceRange s)) ∧
      (t.toNat < s.blk.acc → s.core.accBusy = false → ¬owner → exec (.mzero t y) s = .next (seqTrap .accFirstUse s)) ∧
      (t.toNat < s.blk.acc → s.core.accBusy = false → owner → (∃ f ∈ q.flights, f.tile = t.toNat) → waits (.mzero t y)) ∧
      (t.toNat < s.blk.acc → s.core.accBusy = false → owner → (∀ f ∈ q.flights, f.tile ≠ t.toNat) →
        ∃ acc ts, exec (.mzero t y) s = .next { after { s.blk with tiles := ts, seq := on q } with core := { s.core with acc := acc } } ∧
          (∀ n row, row < 32 → Core.accRow { s.core with acc := acc } n row = if n = t.toNat then zeroVec else s.core.accRow n row) ∧
          ∀ n, Block.tile { s.blk with tiles := ts } n = if n = t.toNat then ⟨n, decide (y = 1), 0, false⟩ else s.blk.tile n)) ∧
    (∀ (p : BitVec 1) (a b : BitVec 8),
      let hit (n : Nat) : Bool := (n = a.toNat || (p = 1 && n = b.toNat)) && !s.blk.partner n && (slot n).ahead.claimed
      (p = 0 → b ≠ 0 → exec (.mrel p a b) s = .next (seqTrap (.illegal 4 0) s)) ∧
      ((p = 1 ∨ b = 0) → ¬(a.toNat < s.blk.slots ∧ (p = 1 → b.toNat < s.blk.slots)) → exec (.mrel p a b) s = .next (seqTrap .resourceRange s)) ∧
      ((p = 1 ∨ b = 0) → a.toNat < s.blk.slots → (p = 1 → b.toNat < s.blk.slots) → settled →
        (∀ n, hit n = true → (slot n).readers = 0 ∧ (slot (n + 1)).readers = 0) →
        ∃ ts id, exec (.mrel p a b) s = .next { after { s.blk with oslots := ts, seq := on q } with nextId := id } ∧
          ∀ n, Block.oslot { s.blk with oslots := ts } n = if hit n then { slot n with data := false, scale := false, stamp := none } else slot n)) ∧
    (∀ (n : BitVec 4) (b : Bar), s.blk.barrier[n.toNat]? = some b → b.abn = false → b.wait = 0 → b.waitSeq = false →
      let arrived := s.blk.barrier.set n.toNat (bar { b with arrSeq := true })
      let member := n.toNat < s.blk.bars ∧ b.memSeq = true
      (¬drained → q.waiting = none → waits (.mbara n) ∧ waits (.mbarw n)) ∧
      (q.late ≠ none → q.waiting = none → waits (.mbara n) ∧ waits (.mbarw n)) ∧
      (drained → q.late = none → q.waiting = none → ¬member → ∀ i ∈ ([.mbara n, .mbarw n] : List Instr), exec i s = .next (seqTrap .resourceRange s)) ∧
      (drained → q.late = none → q.waiting = none → member → b.arrSeq = true → (b.arr ≠ b.mem ∨ b.arrSeq ≠ b.memSeq) →
        let second (i : Instr) (q' : Seq) : Prop := exec i s = .next { s with
          issue := { s.issue with pfx := none, ended := some (.waiting .retry) }
          blk := { s.blk with barrier := s.blk.barrier.set n.toNat { b with waitSeq := true }, seq := q' } }
        second (.mbara n) { q with late := some (n.toNat, b.gen, false) } ∧ second (.mbarw n) { q with abn := false, late := some (n.toNat, b.gen, true) }) ∧
      (drained → member → b.arrSeq = false → q.late = none → q.waiting = none →
        exec (.mbara n) s = .next (after { s.blk with barrier := arrived, seq := on q }) ∧
        exec (.mbarw n) s = .next (after { s.blk with barrier := arrived, seq := { q with abn := false, waiting := some (n.toNat, b.gen) } })) ∧
      (∀ g, q.waiting = some (n.toNat, g) → (b.gen = g → waits (.mbarw n)) ∧
        (b.gen ≠ g → exec (.mbarw n) s = .next (after { s.blk with seq := on { q with waiting := none } })))) ∧
    ((¬drained → waits .mend) ∧ (drained → q.waiting = none → q.late = none → (∀ b ∈ s.blk.barrier, b.abn = false ∧ b.wait = 0 ∧ b.waitSeq = false) →
      exec .mend s = .next (after { s.blk with
        seq := { q with ended := true }
        barrier := s.blk.barrier.mapIdx fun n b => if n < s.blk.bars
          then bar (if b.memSeq then { b with arrSeq := true, nmemSeq := false } else { b with nmemSeq := false }) else b })))

/-! ## Events: results, the array and the engines -/

/-- R48, R49, R112, R113, R226, R32, R35 to R39, R166, R330: results that are due are written; a VAR result, a queue entry and a full-empty load
arrive once what they wait for is known; an mmac writes its tile, an FP32 row by the sum of R35 with the zeros, infinities and NaNs of R36, a
row with a bad scale or in which a shadow column differs is poisoned, and both are logged (R333).
The model's choices here: assumptions 11, 19, 43, 48. -/
def Obligations.ResultEvents : Prop :=
  ∀ s : State, s.active = false →
    (∀ k w, s.getWarp k = some w → ∃ t, exec (.resultWriteback k) s = .next t ∧ t = { s with warps := t.warps } ∧
      (∀ k', k' ≠ k → t.getWarp k' = s.getWarp k') ∧
      let due (p : Pend) : Bool := match p.due with | some d => decide (d ≤ s.clock) | none => false
      t.getWarp k = some { ((w.pend.filter due).foldl (fun a p => a.writeDest p.dest p.lanes p.val) w) with pend := w.pend.filter fun p => !due p }) ∧
    (∀ k id w, s.getWarp k = some w → (∀ o ∈ s.ops, ∀ sz c pid cells ls, o.kind = .feload sz c pid cells ls → pid ≠ id) →
      let waited := (∃ x ∈ s.sends, x.id = id) ∨ (∃ x ∈ s.sops, x.1 = id) ∨ (∃ o ∈ s.ops, (∃ a bs bad r, o.kind = .wsnap a bs bad r id) ∨ ∃ sz ps, o.kind = .gather sz id ps)
      (waited → exec (.loadDataArrival k id) s = .next s) ∧
      (¬waited → ∃ t, exec (.loadDataArrival k id) s = .next t ∧ t = { s with warps := t.warps } ∧ (∀ k', k' ≠ k → t.getWarp k' = s.getWarp k') ∧
        ∀ w', t.getWarp k = some w' → w'.dq = w.dq.mapIdx (fun _ q => q.map fun e => if e.id = id then { e with arrived := true } else e) ∧
          ((∃ p ∈ w.pend, p.id = id ∧ p.due = none) → w'.pend = w.pend.filter (fun p => p.id != id) ∧
            w'.settleAll.sregs = ((w.pend.filter (fun p => p.id = id) ++ w.pend.filter (fun p => p.id != id)).foldl (fun a p => a.writeDest p.dest p.lanes p.val) w).sregs) ∧
          ((∀ p ∈ w.pend, p.id ≠ id) → w' = { w with dq := w'.dq }))) ∧
    (∀ k id o sz clear cells ls, s.ops = [o] → o.key = k → o.done = false → o.kind = .feload sz clear id cells ls →
      ((∃ c ∈ cells, s.isFull (c.2.1, c.2.2.1, c.2.2.2 / 16) = false) → exec (.loadDataArrival k id) s = .next s) ∧
      ((∀ c ∈ cells, s.isFull (c.2.1, c.2.2.1, c.2.2.2 / 16) = true ∧ s.poisoned (.scratch c.2.1 c.2.2.1 c.2.2.2) sz = false) → s.cores = [] →
        ∀ w p, s.getWarp k = some w → w.exited = false → w.pend = [p] → p.id = id → p.due = none →
        (∀ q ∈ w.dq.toList ++ w.dqWait.toList, ∀ e ∈ q, e.id ≠ id) →
        ∃ t, exec (.loadDataArrival k id) s = .next t ∧ t.ops = [] ∧
          (∀ c ∈ cells, t.isFull (c.2.1, c.2.2.1, c.2.2.2 / 16) = !clear) ∧
          ∃ v : VReg, t.getWarp k = some { (w.writeDest p.dest p.lanes v) with pend := [] } ∧
            ∀ l : Fin 32, v[l] = match cells.find? (fun c => c.1 = l.val) with
              | some c => BitVec.ofNat 32 (leNat (s.readPlace (.scratch c.2.1 c.2.2.1 c.2.2.2) sz))
              | none => 0)) ∧
    (∀ core slot b f r, s.getBlk core slot = some b → b.seq.flights = f :: r →
      (s.clock < f.due → exec (.mmacComplete core slot) s = .next s) ∧
      (f.due ≤ s.clock →
        let operand (n : Nat) : OSlot :=
          let o := b.oslot n
          if 2048 < imageBytes o.hdr then { o with img := o.img ++ (b.oslot (n + 1)).img.map fun c => (2048 + c.1, c.2) } else o
        let x := operand f.a
        let y := operand f.b
        let c := s.getCore core
        let bad (i : Nat) : Bool := decide (y.badRows ≠ 0) || (List.range 32).any y.badScaleRow || x.badRows.getLsbD i || x.badScaleRow i
        let shadow := Config.shadowRows s.tick false ||| Config.shadowRows s.tick true
        let scales (o : OSlot) : List (Nat × Nat) := ((List.range 32).filter o.badScaleRow).map fun i => (4, i)
        let differs : List (Nat × Nat) := ([false, true].filter fun h => decide (Config.shadowRows s.tick h ≠ 0)).map fun h => (3, 2 * f.number + if h then 1 else 0)
        let events := scales x ++ scales y ++ differs
        let record (e : Nat × Nat) : List Byte := leBytes 1 e.1 ++ leBytes 1 0xFF ++ leBytes 2 core ++ leBytes 2 b.ctx ++ leBytes 2 f.tile ++ leBytes 1 e.2 ++
          leBytes 3 0 ++ leBytes 4 (s.us % 2 ^ 32)
        ∃ t b', exec (.mmacComplete core slot) s = .next t ∧ t.getBlk core slot = some b' ∧
          (s.fu.errLen = 0 → t.mem = s.mem) ∧
          (0 < s.fu.errLen → t.fu = { s.fu with errNext := s.fu.errNext + events.length } ∧
            (events.length ≤ s.fu.errLen → cellsWf s.mem = true → s.ck = none → ∀ j e, events[j]? = some e →
              t.readMem 0 (s.fu.errBase + 16 * ((s.fu.errNext + j) % s.fu.errLen)) 16 = record e)) ∧ b'.seq = { b.seq with flights := r } ∧
          (∀ tile i, i < 32 → (t.getCore core).accRow tile i = if tile ≠ f.tile then c.accRow tile i
            else if bad i || shadow.getLsbD i then splat (if 9 ≤ hdrFmt x.hdr then 0 else 0x7FC00000#32) else mmacRow (c.accRow f.tile i) x y i f.sat) ∧
          (∀ i < 32, (b'.tile f.tile).poison.getLsbD i = ((b.tile f.tile).poison.getLsbD i || bad i || shadow.getLsbD i)) ∧
          ∀ tile, tile ≠ f.tile → b'.tile tile = b.tile tile)) ∧
    (∀ (old : VReg) (x y : OSlot) (i : Nat) (sat : Bool) (j : Fin 32), 9 ≤ hdrFmt x.hdr →
      let z : Int := (List.range (hdrK x.hdr)).foldl (fun a k => a + x.intFactor i k * y.intFactor j k) old[j].toInt
      (mmacRow old x y i sat)[j] = BitVec.ofInt 32 (if sat then max (-2 ^ 31) (min (2 ^ 31 - 1) z) else z)) ∧
    (∀ (old : VReg) (x y : OSlot) (i : Nat) (sat : Bool) (j : Fin 32), hdrFmt x.hdr < 9 →
      (mmacRow old x y i sat)[j] = matrixSum old[j] ((List.range (hdrK x.hdr)).filterMap fun k =>
        let a := x.factor i k
        let b := y.factor j k
        if a.isZero || b.isZero then none
        else match a.mul b with
          | .num d => some (.num (if x.hdr.getLsbD 4 then { d with exp := d.exp - 5 } else d))
          | v => some v)) ∧
    (∀ (x : OSlot) (i k : Nat) (g : Fmt), slotFmt (hdrFmt x.hdr) = some g →
      let v := g.decode (x.code i k)
      let scale := x.scaleOf i (k / 32) % 256
      let mx := 4 ≤ hdrFmt x.hdr ∧ hdrFmt x.hdr ≤ 8
      (¬mx → x.factor i k = v) ∧ (mx → scale = 255 → x.factor i k = .nan) ∧
      (mx → scale ≠ 255 → (∀ d, v = .num d → x.factor i k = .num { d with exp := d.exp + ((scale : Int) - 127) }) ∧ ((∀ d, v ≠ .num d) → x.factor i k = v))) ∧
    (∀ (c : Word) (ps : List FVal), let ts := fp32.decode c.toNat :: ps
      ((.nan ∈ ts ∨ .inf true ∈ ts ∧ .inf false ∈ ts) → matrixSum c ps = 0x7FC00000#32) ∧
      (.nan ∉ ts → (.inf false ∈ ts → .inf true ∉ ts → matrixSum c ps = 0x7F800000#32) ∧ (.inf true ∈ ts → .inf false ∉ ts → matrixSum c ps = 0xFF800000#32))) ∧
    (∀ (c : Word) (ps : List FVal), let ts := fp32.decode c.toNat :: ps
      (∀ v ∈ ts, ∃ d, v = .num d) →
      let ds := ts.filterMap fun v => match v with | .num d => if d.man = 0 then none else some d | _ => none
      (ds = [] → matrixSum c ps = 0) ∧ (ds ≠ [] → ∃ q : Int, (∀ d ∈ ds, d.log2 - 60 ≤ q) ∧ (∃ d ∈ ds, q = d.log2 - 60) ∧
        let n : Int := (ds.map fun d => (if d.neg then -1 else 1) * (if q ≤ d.exp then ((d.man * 2 ^ (d.exp - q).toNat : Nat) : Int) else ((d.man / 2 ^ (q - d.exp).toNat : Nat) : Int))).sum
        matrixSum c ps = if n = 0 then 0 else BitVec.ofNat 32 (fp32.rnd .rn (.num ⟨decide (n < 0), n.natAbs, q⟩))))

/-- R239, R154 to R158, R162, R236, R237, R215 to R218: an engine operation is performed and retires: a copy to or from a partition, into an
operand slot, or between memories, on this module or another; a suspended one goes on once its token has come back, a lauter cell takes a contribution in key order, and frames move between the ring and the cask.
The model's choices here: assumptions 11, 12, 38, 44, 63, 98. -/
def Obligations.EngineEvents : Prop :=
  ∀ s : State, s.active = false →
    (∀ id, (∀ o ∈ s.ops, o.id ≠ id) → exec (.engineOpComplete id) s = .next s ∧ exec (.copyResume id) s = .next s ∧ exec (.lauterContribution id) s = .next s) ∧
    (∀ o r b, s.Ready o r → s.getBlk o.key.core o.key.slot = some b →
      ((o.kind = .accrd ∨ o.kind = .accwr) → s.Performs o r s) ∧
      (∀ (far near rows rb stride : Nat) (pl : Nat → Place), o.kind = .cpy false far near false rows rb stride → o.off = 0 → o.bad = [] → 0 < rows → 0 < rb → rb % 16 = 0 →
        let n := rows * rb / 16
        cellsWf b.scratch = true → s.poison = [] → (∀ x ∈ s.blks, x.spoison = []) → (∀ l ∈ s.clines, l.poison = false) →
        (∀ j < n, place (s.load o.key o.key.core o.key.slot o.ctx) (progAccess o.level true false 2) (BitVec.ofNat 64 (far + 16 * j / rb * stride + 16 * j % rb)) 16 = .ok (pl j) ∧ ∃ pa k, pl j = .mem pa k) →
        ∃ t b', exec (.engineOpComplete o.id) s = .next t ∧ t.ops = r ∧ t.mem = s.mem ∧ t.cellar = s.cellar ∧ t.getBlk o.key.core o.key.slot = some b' ∧
          cellsRead b'.scratch near (16 * n) = (List.range n).flatMap (fun j => s.readPlace (pl j) 16) ∧
          (∀ a, (a < near ∨ near + 16 * n ≤ a) → cellGet b'.scratch a = cellGet b.scratch a) ∧
          ∀ g, b'.full.contains g = (b.full.contains g || (List.range n).any fun j => (near + 16 * j) / 16 = g)) ∧
      (let l := s.load o.key o.key.core o.key.slot o.ctx
       let moved (n : Nat) (pl : Nat → Place) (bs : Nat → List Byte) : Prop :=
         (∀ u, OnlyAt l u ((List.range n).map fun j => (pl j, 16)) → ∀ j < n, (match o.kind with
            | .cpy _ far _ _ _ rb stride => place u (progAccess o.level false true 2) (BitVec.ofNat 64 (far + 16 * j / rb * stride + 16 * j % rb)) 16
            | .cpyr la ra _ put _ => place u (progAccess o.level false true 2) (BitVec.ofNat 64 ((if put then ra else la) + 16 * j)) 16
            | _ => .error (.wait .retry)) = .ok (pl j) ∧ ∃ pa k, pl j = .mem pa k) →
         ∃ u, OnlyAt l u ((List.range n).map fun j => (pl j, 16)) ∧ s.Performs o r u ∧
           ∀ j < n, (∀ i < n, j < i → ∀ x < 16, (pl i).touches 16 ((pl j).byte x) = false) → u.readPlace (pl j) 16 = bs j
       Memory.wf s = true → s.ck = none → s.poison = [] → b.spoison = [] → o.off = 0 → o.bad = [] →
       (∀ (far near rows rb stride : Nat) (pl : Nat → Place), o.kind = .cpy true far near false rows rb stride → 0 < rows → 0 < rb → rb % 16 = 0 →
         moved (rows * rb / 16) pl fun j => cellsRead b.scratch (near + 16 * j) 16) ∧
       (∀ (la ra n : Nat) (put : Bool) (pl ql : Nat → Place), o.kind = .cpyr la ra s.fab.homeModule put (16 * n) → s.fab.homeModule ∉ s.fab.revoked →
         (∀ u, OnlyAt l u ((List.range n).map fun j => (pl j, 16)) → ∀ j < n,
           place u (progAccess o.level true false 2) (BitVec.ofNat 64 ((if put then la else ra) + 16 * j)) 16 = .ok (ql j) ∧ ∃ pa k, ql j = .mem pa k) →
         (∀ i < n, ∀ j < n, ∀ x < 16, (pl i).touches 16 ((ql j).byte x) = false) →
         moved n pl fun j => l.readPlace (ql j) 16) ∧
       (∀ (la ra m n : Nat) (pl : Nat → Place), m ≠ s.fab.homeModule → m ∉ s.fab.revoked → s.fab.homeModule ∉ s.fab.revoked → (∃ x ∈ s.fab.links, x.up = true) →
         (∀ j < n, Config.remoteFault s.tick (16 * j) ∉ [1, 2]) →
         (o.kind = .cpyr la ra m false (16 * n) → moved n pl fun j => (List.range 16).map fun i => Config.remoteByte s.tick (16 * j + i)) ∧
         (o.kind = .cpyr la ra m true (16 * n) → s.Performs o r s))) ∧
      (∀ (src slot swz stride : Nat) (pl ql : Nat → Place), o.kind = .cpyo src slot swz stride → o.off = 0 → s.poison = [] →
        let x := b.oslot slot
        let img := imageBytes x.hdr
        let rb := img / 32
        let l := s.load o.key o.key.core o.key.slot o.ctx
        x.readers = 0 → (b.oslot (slot + 1)).readers = 0 → (∀ y ∈ r, y.kind.fills ≠ some slot) → cellsWf x.img = true → cellsWf x.scl = true → cellsWf (b.oslot (slot + 1)).img = true →
        (∀ j < img / 16, place l (progAccess o.level true false 2) (BitVec.ofNat 64 (src + 16 * j / rb * (if stride = 0 then rb else stride) + 16 * j % rb)) 16 = .ok (pl j) ∧ ∃ pa k, pl j = .mem pa k) →
        (∀ i < scaleBytes x.hdr, place l (progAccess o.level true false 2) (BitVec.ofNat 64 src + x.soff.signExtend 64 + BitVec.ofNat 64 i) 1 = .ok (ql i) ∧ ∃ pa k, ql i = .mem pa k) →
        ∃ t b', exec (.engineOpComplete o.id) s = .next t ∧ t.ops = r ∧ t.mem = s.mem ∧ t.getBlk o.key.core o.key.slot = some b' ∧ b'.scratch = b.scratch ∧
          let y := b'.oslot slot
          y.claimed = x.claimed ∧ y.hdr = x.hdr ∧ y.badRows = 0 ∧ y.data = (x.data || x.claimed) ∧ y.scale = (x.scale || (isMx x.hdr && x.claimed)) ∧
          (∀ j < img / 16, cellsRead (if 16 * j < 2048 then y.img else (b'.oslot (slot + 1)).img) (16 * j % 2048) 16 = s.readPlace (pl j) 16) ∧
          cellsRead y.scl 0 (scaleBytes x.hdr) = (List.range (scaleBytes x.hdr)).flatMap fun i => s.readPlace (ql i) 1)) ∧
    (∀ o r tok, s.ops = o :: r → (∀ x ∈ r, x.id ≠ o.id) → o.token = some tok →
      ((∃ x ∈ s.fu.recs, x.token = tok) → exec (.copyResume o.id) s = .next s) ∧
      ((∀ x ∈ s.fu.recs, x.token ≠ tok) → exec (.copyResume o.id) s = .next { s with ops := { o with token := none } :: r })) ∧
    (∀ o w ab line g v found (i : Fin 32), s.ops = [o] → s.cores = [] → o.done = false → o.kind = .fold ab line g (1#32 <<< i.val) v found →
      s.getWarp o.key = some w → w.exited = false →
      let l := s.cline line
      let key := g * 32 + i.val
      let bound := ∃ x ∈ l.owners, x.1 = g
      (l.st = 2 ∨ l.st = 3 → ∃ t, exec (.lauterContribution o.id) s = .next t ∧ t.ops = [] ∧
        t.cline line = if found then { l with kerr := l.kerr || !ab } else { l with stray := true }) ∧
      (l.st = 1 → ¬bound → 64 ≤ l.owners.length → ∃ t, exec (.lauterContribution o.id) s = .next t ∧ t.ops = [] ∧ t.cline line = { l with kerr := true }) ∧
      (l.st = 1 → (bound ∨ l.owners.length < 64) → ab = false → key < l.count → l.next + 64 ≤ key → (∃ q ∈ l.queue, q.1 = key) → ∃ t,
        exec (.lauterContribution o.id) s = .next t ∧ t.ops = [] ∧ (t.cline line).kerr = true ∧ (t.cline line).sum = l.sum ∧ (t.cline line).next = l.next) ∧
      (l.st = 1 → (bound ∨ l.owners.length < 64) → ab = false → key < l.count → l.next + 64 ≤ key → (∀ q ∈ l.queue, q.1 ≠ key) → ∃ t, exec (.lauterContribution o.id) s = .next t ∧
        (∃ o', t.ops = [o'] ∧ o'.done = false) ∧ (t.cline line).sum = l.sum ∧ (t.cline line).next = l.next) ∧
      (l.st = 1 → (bound ∨ l.owners.length < 64) → l.queue = [] → key = l.next → key < l.count → ∃ t, exec (.lauterContribution o.id) s = .next t ∧ t.ops = [] ∧
        let m := t.cline line
        m.next = l.next + 1 ∧ m.sum = (if ab then l.sum else f32Add l.sum v[i]) ∧ m.arrived = (if ab then l.arrived else l.arrived + 1) ∧
          m.aband = (if ab then l.aband + 1 else l.aband) ∧ m.st = if l.next + 1 < l.count then 1 else if m.aband = 0 then 2 else 3)) ∧
    (∀ k w, s.getWarp k = some w →
      let held := 48 + ((w.links.filter fun l => !l.out).map (·.k)).sum
      let starts (i : Instr) (r : Option Rack) : Prop := ∃ t, exec i s = .next t ∧ t = { s with warps := t.warps } ∧ t.getWarp k = some { w with rack := r }
      (w.rack ≠ none → starts (.rackingSpill k) w.rack ∧ starts (.rackingRefill k) w.rack) ∧
      (w.rack = none → (∀ j < 4, ∀ n, (w.splitAt j).wait ≠ some (.callRoom n)) →
        (held ≤ w.w - 16 → starts (.rackingSpill k) none) ∧
        (w.w - 16 < held → ∀ pre l, w.links = pre ++ [l] → l.out = false → starts (.rackingSpill k) (some ⟨true, 1, l.k, 0, none, none⟩))) ∧
      (w.rack = none → ∀ l r, w.links = l :: r → l.out = true → held + l.k ≤ w.w - 16 → starts (.rackingRefill k) (some ⟨false, r.length + 1, l.k, 0, none, none⟩)) ∧
      (w.rack = none → (∀ l ∈ w.links, l.out = false) → starts (.rackingRefill k) none) ∧
      (w.rack = none → exec (.rackingTransferDone k) s = .next s) ∧
      (∀ l r b c K, w.links = l :: r → l.out = true → l.k = K → 0 < w.w → w.w ≤ 176 → K ≤ w.w → w.wbase < w.w → w.rack = some ⟨false, r.length + 1, K, 0, none, none⟩ →
        s.getBlk k.core k.slot = some b → k.slot < 4 → s.getCtx b.ctx = some c → b.ctx = c.id →
        ∀ pa key, (∀ i ≤ 8 * K, translate s c.root ⟨true, false, false, false, true, 3⟩ (w.cask + r.length * 6160 + 16 * i) = .ok (pa + 16 * i, key)) →
        ∃ t, exec (.rackingTransferDone k) s = .next t ∧ t.mem = s.mem ∧
          ∀ w', t.getWarp k = some w' → w'.links = { l with out := false } :: r ∧ w'.rack = w.rackNext ∧ w'.rackNext = none ∧ w'.sregs = w.sregs ∧ w'.vfix = w.vfix ∧
            ∀ i < K, ∀ j : Fin 32, ((w'.ring[(w.wbase + w.w - K + i) % w.w]?).getD zeroVec)[j] = BitVec.ofNat 32 (leNat (s.readMem key (pa + 16 + 128 * i + 4 * j) 4))) ∧
      (∀ l b c K, w.links = [l] → l.out = false → l.k = K → 0 < w.w → w.w ≤ 176 → K ≤ w.w → w.wbase < w.w → w.rack = some ⟨true, 1, K, 0, none, none⟩ →
        (∀ p ∈ w.pend, ∀ i, p.dest ≠ .vr i) → cellsWf s.mem = true → s.ck = none →
        s.getBlk k.core k.slot = some b → k.slot < 4 → s.getCtx b.ctx = some c → b.ctx = c.id →
        let v := s.load k k.core k.slot b.ctx
        ∀ pa key, (∀ u, OnlyAt v u [(.mem pa key, 16 + 128 * K)] →
          ∀ i ≤ 8 * K, translate u c.root ⟨false, true, false, false, true, 3⟩ (w.cask + 16 * i) = .ok (pa + 16 * i, key)) →
        ∃ t, exec (.rackingTransferDone k) s = .next t ∧
          t.readMem key pa (16 + 128 * K) = leBytes 8 l.ret.toNat ++ leBytes 4 K ++ leBytes 4 0 ++
            (List.range K).flatMap (fun i => ((w.ring[(w.wbase + w.w - K + i) % w.w]?).getD zeroVec).toList.flatMap fun x => leBytes 4 x.toNat) ∧
          (∀ y e, (Place.mem pa key).touches (16 + 128 * K) (.mem y e) = false → t.readMem e y 1 = s.readMem e y 1) ∧
          ∀ w', t.getWarp k = some w' → w' = { w with links := [{ l with out := true }], rack := w.rackNext, rackNext := none }))

/-! ## Events: the hub -/

/-- R174 to R176, R190, R273 to R282, R298, R301, R338, R340: a send at its target: BARRED, STALE, DEAD, OVER, or its effect; one to a HOST entry writes
the host thread's wake word, one to an entry in TRANSIT is held, and one to another module is answered by it while a link is up; a
message needs a posted buffer and room for a receipt, and waits while the reserve of a checkpoint is exhausted; a name without an entry is ABSENT;
a bounced message is placed once its fault is served; the end of a name ends the joins that wait for it; the stream operations of one
warp on one source keep their order; host threads own HOST entries; a flush makes memory's image of an entry current.
The model's choices here: assumptions 12, 13, 16, 23, 48, 105. -/
def Obligations.HubEvents : Prop :=
  ∀ s : State, s.active = false →
    let put (e' : NameEntry) : List NameEntry := e' :: s.names.filter fun x => x.name != e'.name
    let told (x : Send) (t : State) (st : Word) : Prop :=
      ∀ k w p n, x.key = some k → s.getWarp k = some w → w.pend.filter (fun p => p.id = x.id) = [p] → p.dest = .u n → n < 96 →
        (t.getWarp k).map (fun w => w.readU n) = some st
    let answers (x : Send) (i : Instr) (st : Word) (names : List NameEntry) : Prop := ∃ t, exec i s = .next t ∧ t.names = names ∧
      t.sends = s.sends.filter (fun y => y.id != x.id) ∧ (x.host = none → t.mem = s.mem ∧ told x t st) ∧
      ∀ a, x.host = some a → cellsWf s.mem = true → s.ck = none → t.rdN (a + 4) 4 = st.toNat ∧ t.rdN a 4 = s.rdN a 4 % 2 ^ 31
    (∀ x, s.sends.find? (fun y => y.id = x.id) = some x → s.remote x.name = false → s.entry x.name = none →
      answers x (if x.op.isMsg then .messageDelivery x.id else .sendResolve x.id) 15 s.names) ∧
    (∀ x e, s.sends.find? (fun y => y.id = x.id) = some x → s.remote x.name = false → s.entry x.name = some e → e.name = x.name →
      let accepted := x.name.extractLsb' 48 16 = x.domain ∨ e.opn = true ∨ x.domain ∈ e.accept.toList.take e.nacc
      let current := x.anyGen = true ∨ e.gen = x.gen
      let told := told x
      let answers := answers x
      let word (t : State) (count : Nat) : Prop := t.rdN e.loc.toNat 8 = count % 2 ^ 32 + e.gen.toNat * 2 ^ 32 + 2 ^ 48
      let presents (e' : NameEntry) : Prop := ∃ t, exec (.sendResolve x.id) s = .next t ∧ t.names = put e' ∧ t.sends = s.sends.filter (fun y => y.id != x.id) ∧
        told t 0 ∧ word t e'.count ∧ ∀ y, (y < e.loc.toNat ∨ e.loc.toNat + 8 ≤ y) → t.readMem 0 y 1 = s.readMem 0 y 1
      let go := Instr.sendResolve x.id
      (e.st = 4 → (x.op.isMsg = false → exec go s = .next s) ∧ ∀ len tag bs bad, x.op = .msg len tag bs bad → exec (.messageDelivery x.id) s = .next s) ∧
      (e.st ≠ 4 → x.op.isMsg = false → ¬accepted → answers go 4 s.names) ∧
      (e.st ≠ 4 → x.op.isMsg = false → accepted → ¬current → (x.op = .wake ∨ ∃ n, x.op = .sig n) → answers go 3 s.names) ∧
      (x.op.isMsg = false → accepted → (current ∨ ∃ k v c, x.op = .dep k v c) → e.st = 5 → answers go 2 s.names) ∧
      (accepted → current → e.st ∉ [4, 5] → ∀ n, x.op = .sig n → 2 ^ 32 ≤ e.count + n → answers go 5 s.names) ∧
      (accepted → current → e.st ∉ [4, 5, 6] → (∀ n, x.op = .sig n → e.count + n < 2 ^ 32 → answers go 0 (put { e with count := e.count + n })) ∧
        (x.op = .wake → answers go 0 (put { e with wake := true }))) ∧
      (accepted → e.st ∉ [4, 5] → ∀ k v, x.op = .dep k v true → e.count = 2 ^ 32 - 1 → answers go 5 s.names) ∧
      (accepted → e.st ∉ [4, 5, 6] → ∀ k v c, x.op = .dep k v c → (c = true → e.count < 2 ^ 32 - 1) →
        answers go 0 (put { e with dep := e.dep.setIfInBounds k v, count := e.count + if c then 1 else 0 })) ∧
      (accepted → e.st = 6 → x.host = none → cellsWf s.mem = true → s.ck = none →
        (current → (∀ n, x.op = .sig n → e.count + n < 2 ^ 32 → presents { e with count := e.count + n }) ∧ (x.op = .wake → presents { e with wake := true })) ∧
        ∀ k v c, x.op = .dep k v c → (c = true → e.count < 2 ^ 32 - 1) → presents { e with dep := e.dep.setIfInBounds k v, count := e.count + if c then 1 else 0 }) ∧
      (∀ len tag bs bad, x.op = .msg len tag bs bad → x.host = none → accepted → e.st ∉ [4, 5] →
        let deliver := Instr.messageDelivery x.id
        (e.posts = [] → answers deliver 10 s.names) ∧ (e.posts ≠ [] → 16 ≤ e.receipts.length → answers deliver 8 s.names) ∧
        (∀ p r, e.posts = p :: r → e.receipts.length < 16 → e.count < 2 ^ 32 - 1 →
          (storeBytes s (((s.getCtx e.ctx).map (·.root)).getD 0) 4 p.addr.toNat (bs.take p.len) = .error (.wait .retry) → exec deliver s = .next s) ∧
          ∀ u, storeBytes s (((s.getCtx e.ctx).map (·.root)).getD 0) 4 p.addr.toNat (bs.take p.len) = .ok u →
          ∃ t, exec deliver s = .next t ∧ (e.st ≠ 6 → t.mem = u.mem) ∧ t.sends = s.sends.filter (fun y => y.id != x.id) ∧
            told t (if p.len < len then 9 else 0) ∧
            (s.entry x.name = some e → s.nameAddr x.name = u.nameAddr x.name → (t.names.find? fun y => y.name = x.name) = some { e with
              posts := r, count := e.count + 1
              receipts := e.receipts ++ [⟨p.id, if true ∈ bad then 15 else if p.len < len then 9 else 0, BitVec.ofNat 32 len, tag, x.domain⟩] } ∧
              (e.st = 6 → cellsWf s.mem = true → s.ck = none → word t (e.count + 1)))))) ∧
    (∀ x, s.sends.find? (fun y => y.id = x.id) = some x → s.remote x.name = true →
      let i := if x.op.isMsg then Instr.messageDelivery x.id else .sendResolve x.id
      let reached := (∃ l ∈ s.fab.links, l.up = true) ∨ s.nameHome x.name ∈ s.fab.revoked ∨ s.fab.homeModule ∈ s.fab.revoked
      (¬reached → exec i s = .next s) ∧
      (reached → ∃ t, exec i s = .next t ∧ t.names = s.names ∧ t.sends = s.sends.filter (fun y => y.id != x.id) ∧ (x.host = none → t.mem = s.mem ∧
        ∀ k w p n, x.key = some k → s.getWarp k = some w → w.pend.filter (fun p => p.id = x.id) = [p] → p.dest = .u n → n < 96 →
          (t.getWarp k).map (fun w => w.readU n) = some (if s.nameHome x.name ∈ s.fab.revoked ∨ s.fab.homeModule ∈ s.fab.revoked then 15 else Config.remoteStatus s.tick)))) ∧
    (∀ id, (∀ x ∈ s.sends, x.id ≠ id) → exec (.messageDelivery id) s = .next s ∧
      ((∀ x ∈ s.sops, x.1 ≠ id) → exec (.sendResolve id) s = .next s) ∧
      (∀ k c op, s.sops = [(id, k, c, op)] → (s.resolveStream c op = none → exec (.sendResolve id) s = .next s) ∧
        ∀ st u, s.resolveStream c op = some (st, u) → ∃ t, exec (.sendResolve id) s = .next t ∧ t.sops = [] ∧ t.streams = u.streams ∧ t.mem = u.mem) ∧
      ∀ pre k c op post, s.sops = pre ++ (id, k, c, op) :: post → (∀ y ∈ pre, y.1 ≠ id) → (∃ y ∈ pre, y.2.1 = k ∧ y.2.2.2.ordered op = true) →
        exec (.sendResolve id) s = .next s) ∧
    (∀ b, s.bounces = [b] →
      ((∃ r ∈ s.fu.recs, r.who = some (.bounce b.id)) → exec (.bouncePlacement b.id) s = .next s) ∧
      ((∀ r ∈ s.fu.recs, r.who ≠ some (.bounce b.id)) → true ∉ b.bad →
        (storeBytes s (((s.getCtx b.ctx).map (·.root)).getD 0) 4 b.post.addr.toNat b.bytes = .error (.wait .retry) → exec (.bouncePlacement b.id) s = .next s) ∧
        ∀ u, storeBytes s (((s.getCtx b.ctx).map (·.root)).getD 0) 4 b.post.addr.toNat b.bytes = .ok u → u.entry b.name = none →
          ∃ t, exec (.bouncePlacement b.id) s = .next t ∧ t = { u with bounces := [], poison := t.poison } ∧ ∀ q, t.poisoned q 1 = true → u.poisoned q 1 = true)) ∧
    (∀ c name wake,
      (∀ e, s.entryRaw name = some e → e.st ∈ [0, 5, 7] → wake.toNat % 8 = 0 → exec (.hostThreadRegister c name wake) s = .next { s with names := put {
        name := name, gen := e.gen + 1, opn := false, nacc := 0, wake := false, st := 6, count := 0, loc := wake, accept := Vector.replicate 4 0
        dep := Vector.replicate 4 0, posts := [], receipts := [], ctx := c, transitAt := 0 } }) ∧
      (∀ e, s.entryRaw name = some e → (e.st ∉ [0, 5, 7] ∨ wake.toNat % 8 ≠ 0) → exec (.hostThreadRegister c name wake) s = .next s) ∧
      (s.entryRaw name = none → exec (.hostThreadRegister c name wake) s = .next s)) ∧
    (∀ name e, s.entry name = some e →
      let joins (w : Warp) : Warp := { w with splits := w.splits.map fun p => if p.wait = some (.njoin e.name e.gen) then { p with wait := some .joined } else p }
      exec (.hostThreadRetire name) s = .next (if e.st = 6 then { s with
        names := put { e with st := 5, loc := 0 }, warp := joins s.warp, warps := s.warps.map joins, saved := s.saved.map fun v => { v with warps := v.warps.map joins } } else s)) ∧
    (s.names = [] → exec .nameFlush s = .next s) ∧
    (∀ e a, s.names = [e] → s.nameAddr e.name = some a → cellsWf s.mem = true → (∀ i < 64, s.inReserve (.mem (a + i) 0) = false) → ∃ t, exec .nameFlush s = .next t ∧ OnlyAt s t [(.mem a 0, 64)] ∧
      t.readMem 0 a 64 = leBytes 4 (e.gen.toNat * 65536 + (if e.opn then 512 else 0) + e.nacc * 64 + (if e.wake then 32 else 0) + e.st) ++ leBytes 4 e.count ++ leBytes 8 e.loc.toNat ++
        (e.accept.toList.flatMap fun d => leBytes 2 d.toNat) ++ (e.dep.toList.flatMap fun d => leBytes 8 d.toNat) ++ leBytes 8 0)

/-- R280 to R282: the oldest command taken is run by the event of its op, with the fields that its slot held when its GO write reached
the module, and answered: RESULT where it names one, STATUS, then GO clear.
The model's choices here: assumptions 13, 14, 20, 40, 45, 48, 86. -/
def Obligations.HostCommands : Prop :=
  ∀ s : State, s.active = false → cellsWf s.mem = true → ∀ (h : HostTaken) (older : List HostTaken) (x : Ctx), s.getCtx h.ctx = some x → s.hostq = h :: older →
    (∀ i < 64, s.inReserve (.mem (h.addr + i) 0) = false) → (∀ y ∈ s.sends, y.id ≠ s.nextId) →
    let c := h.ctx
    let slot := h.slot
    let a := h.addr
    let field (o n : Nat) : Nat := leNat ((h.bytes.drop o).take n)
    let word := field 0 4
    let f := word.testBit 10
    let A : DWord := BitVec.ofNat 64 (field 8 8)
    let B : DWord := BitVec.ofNat 64 (field 16 8)
    let low := B.toNat % 2 ^ 32
    let own := BitVec.ofNat 64 (field 48 8)
    let wake := BitVec.ofNat 64 (field 40 8)
    let ends (i : Instr) (u : State) (st : Nat) (res : Option Nat) : Prop := ∃ t, exec i s = .next t ∧
      t = { u with mem := t.mem, lineKey := t.lineKey, ck := t.ck, hostq := older } ∧ t.rdN (a + 4) 4 = st ∧ t.rdN a 4 = u.rdN a 4 % 2 ^ 31 ∧ (∀ r, res = some r → t.rdN (a + 32) 8 = r) ∧
      (res = none → t.rdN (a + 32) 8 = u.rdN (a + 32) 8) ∧
      ∀ y, (y < a ∨ a + 64 ≤ y) → s.inReserve (.mem y 0) = false → t.readMem 0 y 1 = u.readMem 0 y 1
    let sent (u : State) : State := { u with nextId := s.nextId + 1 }
    let all : List Instr := [.hostNsig c slot, .hostNwake c slot, .hostNdep c slot, .hostTake c slot, .hostNrd c slot, .hostWwait c slot, .hostWwake c slot,
      .hostMpost c slot, .hostMstat c slot, .hostPlace c slot]
    let placing : Prop := ∃ y ∈ s.sends, y.op.isPlace = true ∧ y.host = some a
    (placing → ∀ i ∈ all, exec i s = .next s) ∧
    (¬placing →
    (∀ c' slot', (c' ≠ c ∨ slot' ≠ slot) → exec (.hostNsig c' slot') s = .next s ∧ exec (.hostNwake c' slot') s = .next s ∧ exec (.hostNdep c' slot') s = .next s ∧
      exec (.hostTake c' slot') s = .next s ∧ exec (.hostNrd c' slot') s = .next s ∧ exec (.hostWwait c' slot') s = .next s ∧ exec (.hostWwake c' slot') s = .next s ∧
      exec (.hostMpost c' slot') s = .next s ∧ exec (.hostMstat c' slot') s = .next s ∧ exec (.hostPlace c' slot') s = .next s) ∧
    (∀ n i, all[n]? = some i → 1 ≤ word % 256 → word % 256 ≤ 10 → word % 256 ≠ n + 1 → exec i s = .next s) ∧
    ((word % 256 = 0 ∨ 10 < word % 256) → ∀ i ∈ all, ends i s 14 none) ∧
    (∀ n i, all[n]? = some i → word % 256 = n + 1 → word / 2 ^ 11 % 2 ^ 20 ≠ 0 → ends i s 14 none) ∧
    (∀ n i, all[n]? = some i → word % 256 = n + 1 → (s.entry own).all (fun e => decide (e.st ≠ 6 ∨ e.ctx ≠ c)) = true → ends i s 14 none) ∧
    (∀ e, s.entry own = some e → e.st = 6 → e.ctx = c → e.name = own → word / 2 ^ 11 % 2 ^ 20 = 0 →
      let put (e' : NameEntry) : State := { s with names := e' :: s.names.filter fun y => y.name != own }
      (word % 256 = 1 → s.remote A = false → s.entry A = none → ends (.hostNsig c slot) (sent s) 15 none) ∧
      (word % 256 = 2 → s.remote A = false → s.entry A = none → ends (.hostNwake c slot) (sent s) 15 none) ∧
      (word % 256 = 3 → s.remote A = false → s.entry A = none → ends (.hostNdep c slot) (sent s) 15 none) ∧
      (let held (op : SendOp) (any : Bool) : State := { s with nextId := s.nextId + 1, hostq := older, sends := s.sends ++
          [⟨s.nextId, none, none, 0, op, A, any, BitVec.ofNat 16 (field 24 4), own.extractLsb' 48 16, none, some a⟩] }
       (s.remote A = true ∨ ∃ g, s.entry A = some g ∧ g.st = 4) →
        (word % 256 = 1 → exec (.hostNsig c slot) s = .next (held (.sig low) f)) ∧ (word % 256 = 2 → exec (.hostNwake c slot) s = .next (held .wake f)) ∧
        (word % 256 = 3 → exec (.hostNdep c slot) s = .next (held (.dep (word / 256 % 4) B f) true))) ∧
      (∀ g, s.entry A = some g → g.name = A → g.st ∈ [1, 2, 3] → A.extractLsb' 48 16 = own.extractLsb' 48 16 → s.remote A = false →
        let put' (g' : NameEntry) : State := sent { s with names := g' :: s.names.filter fun y => y.name != A }
        (word % 256 = 1 → (f = true ∨ g.gen = BitVec.ofNat 16 (field 24 4)) → g.count + low < 2 ^ 32 → ends (.hostNsig c slot) (put' { g with count := g.count + low }) 0 none) ∧
        (word % 256 = 2 → (f = true ∨ g.gen = BitVec.ofNat 16 (field 24 4)) → ends (.hostNwake c slot) (put' { g with wake := true }) 0 none) ∧
        (word % 256 = 3 → (f = true → g.count < 2 ^ 32 - 1) → ends (.hostNdep c slot)
          (put' { g with dep := g.dep.setIfInBounds (word / 256 % 4) B, count := g.count + if f then 1 else 0 }) 0 none)) ∧
      (word % 256 = 4 → (low ≤ e.count → e.count < 2 ^ 64 → ends (.hostTake c slot) (put { e with count := e.count - low }) 0 (some (e.count - low))) ∧
        (e.count < low → f = true → e.wake = true → ends (.hostTake c slot) (put { e with wake := false }) 6 (some e.count)) ∧
        (e.count < low → (f = false ∨ e.wake = false) → ends (.hostTake c slot) s 14 (some e.count))) ∧
      (word % 256 = 5 → ends (.hostNrd c slot) (if f then put { e with dep := e.dep.setIfInBounds (word / 256 % 4) 0 } else s) 0
        (some ((e.dep[word / 256 % 4]?).getD 0).toNat)) ∧
      (word % 256 = 6 → ∀ pa key, let n := if f then 8 else 4
        A.toNat < 2 ^ 57 → A.toNat % n = 0 → wake.toNat % 8 = 0 → translate s x.root ⟨true, false, false, true, false, 2⟩ A.toNat = .ok (pa, key) →
        (leNat (s.readMem key pa n) ≠ B.toNat % 2 ^ (8 * n) → ends (.hostWwait c slot) s 7 none) ∧
        (leNat (s.readMem key pa n) = B.toNat % 2 ^ (8 * n) →
          (8192 ≤ s.wtab.length → ends (.hostWwait c slot) s 8 none) ∧
          (s.wtab.length < 8192 →
            ends (.hostWwait c slot) { s with nextId := s.nextId + 1, wtab := s.wtab ++ [⟨s.nextId, c, A, none, wake, slot⟩] } 0 none))) ∧
      (word % 256 = 6 → (2 ^ 57 ≤ A.toNat ∨ A.toNat % (if f then 8 else 4) ≠ 0 ∨ wake.toNat % 8 ≠ 0) → ends (.hostWwait c slot) s 15 none) ∧
      (word % 256 = 7 → (2 ^ 57 ≤ A.toNat ∨ A.toNat % 4 ≠ 0) → ends (.hostWwake c slot) s 15 none) ∧
      (word % 256 = 7 → A.toNat < 2 ^ 57 → A.toNat % 4 = 0 → (∃ r, translate s x.root ⟨true, false, false, true, false, 2⟩ A.toNat = .ok r) →
        let found := s.wtab.filter fun y => y.ctx = c && y.va = A
        let ws := if low = 2 ^ 32 - 1 then found else found.take low
        ∃ u, u = { s with mem := u.mem, lineKey := u.lineKey, ck := u.ck, wtab := s.wtab.filter (fun y => ws.all fun e => e.id != y.id), warps := u.warps, saved := u.saved } ∧
          ends (.hostWwake c slot) u 0 (some (ws.length % 2 ^ 64)) ∧ (ws = [] → u = s) ∧ ((∀ e ∈ ws, e.warp ≠ none) → u.mem = s.mem) ∧
          (∀ e ∈ ws, ∀ k w, e.warp = some k → s.getWarp k = some w → (w.splitAt e.hslot).wait = some (.wwait false) →
            ∃ w', u.getWarp k = some w' ∧ (w'.splitAt e.hslot).wait = some (.wwait true)) ∧
          ∀ e, ws = [e] → e.warp = none → (∀ i < 8, s.inReserve (.mem (e.wakeAddr.toNat + i) 0) = false) →
            u.readMem 0 e.wakeAddr.toNat 8 = leBytes 8 (6 + e.hslot % 65536 * 2 ^ 32 + 2 * 2 ^ 48)) ∧
      (word % 256 = 8 → let n := field 24 4
        let reaches (va : Nat) : Prop := ∃ r, translate s x.root ⟨false, true, false, true, false, 2⟩ va = .ok r
        let valid := 1 ≤ n ∧ n ≤ 4096 ∧ n % 16 = 0 ∧ A.toNat + n ≤ 2 ^ 57 ∧ A.toNat % 16 = 0 ∧ reaches A.toNat ∧ reaches (A.toNat + n - 16)
        (valid → e.posts.length < 8 → ends (.hostMpost c slot) (put { e with posts := e.posts ++ [⟨A, n, B.setWidth 32⟩] }) 0 none) ∧
        (valid → 8 ≤ e.posts.length → ends (.hostMpost c slot) s 8 none) ∧ ((n = 0 ∨ 4096 < n ∨ n % 16 ≠ 0 ∨ A.toNat % 16 ≠ 0) → ends (.hostMpost c slot) s 15 none)) ∧
      (word % 256 = 9 → (e.receipts = [] → ends (.hostMstat c slot) s 14 none) ∧
        ∀ r rest, e.receipts = r :: rest → ∃ t, exec (.hostMstat c slot) s = .next t ∧ t.names = (put { e with receipts := rest }).names ∧
          t.rdN (a + 4) 4 = 0 ∧ t.rdN a 4 = s.rdN a 4 % 2 ^ 31 ∧ t.hostq = older ∧ t.rdN (a + 32) 8 = r.id.toNat ∧ t.rdN (a + 16) 8 = r.status.toNat ∧ t.rdN (a + 24) 4 = r.len.toNat ∧
          t.rdN (a + 28) 4 = r.tag.toNat + r.domain.toNat * 65536) ∧
      (word % 256 = 10 → field 24 4 % 16 ≠ 0 → ends (.hostPlace c slot) s 15 none) ∧
      (word % 256 = 10 → s.remote A = false → ∀ n, field 24 4 = 16 * n → n ≤ 2 ^ 20 → (B.toNat % 16 ≠ 0 ∨ 2 ^ 57 ≤ B.toNat ∨ 2 ^ 57 < B.toNat + 16 * n) → ends (.hostPlace c slot) s 15 none) ∧
      (word % 256 = 10 → s.remote A = false → ∀ n, field 24 4 = 16 * n → n ≤ 2 ^ 20 → B.toNat % 16 = 0 → B.toNat < 2 ^ 57 → B.toNat + 16 * n ≤ 2 ^ 57 →
        (∀ j < n, ∃ r, translate s x.root ⟨true, false, false, true, false, 2⟩ (B.toNat + 16 * j) = .ok r) → (∀ y ∈ older, y.addr ≠ a) →
        (s.bounceFull = true → ends (.hostPlace c slot) s 1 none) ∧
        (s.bounceFull = false → s.entry A = none → ends (.hostPlace c slot) (sent s) 15 none) ∧
        ∀ g, s.bounceFull = false → s.entry A = some g → g.st = 5 → ends (.hostPlace c slot) (sent s) 2 none) ∧
      (word % 256 = 10 → s.remote A = false → s.bounceFull = false → s.poison = [] → (∀ y ∈ older, y.addr ≠ a) → (∀ r ∈ s.fu.recs, r.who ≠ some (.bounce s.nextId)) →
        ∀ g n (pl : Nat → Nat × Nat), s.entry A = some g → g.st ∈ [1, 2, 3] → field 24 4 = 16 * n → n ≤ 2 ^ 20 → B.toNat % 16 = 0 → B.toNat < 2 ^ 57 → B.toNat + 16 * n ≤ 2 ^ 57 →
          (∀ j < n, translate s x.root ⟨true, false, false, true, false, 2⟩ (B.toNat + 16 * j) = .ok (pl j)) →
          let bs := (List.range n).flatMap fun j => s.readMem (pl j).2 (pl j).1 16
          let d := field 28 4
          let k := d % 256
          let target := s.warps.find? fun w => w.name = A && w.level = .user && !w.exited
          (∀ w b, target = some w → s.getBlk w.key.core w.key.slot = some b → b.life ≠ .saved →
            let x := b.oslot k
            let done (b' : Block) : Prop := ∃ t, exec (.hostPlace c slot) s = .next t ∧ t.rdN (a + 4) 4 = 0 ∧ t.rdN a 4 = s.rdN a 4 % 2 ^ 31 ∧ t.names = s.names ∧ t.warps = s.warps ∧
              t.hostq = older ∧ t.sends = s.sends ∧ (∀ y, (y < a ∨ a + 64 ≤ y) → s.inReserve (.mem y 0) = false → t.readMem 0 y 1 = s.readMem 0 y 1) ∧
              t.getBlk w.key.core w.key.slot = some b'
            (d < 2 ^ 31 → (d % 16 ≠ 0 ∨ b.part < d + 16 * n) → ends (.hostPlace c slot) (sent s) 15 none) ∧
            (d < 2 ^ 31 → d % 16 = 0 → d + 16 * n ≤ b.part → cellsWf b.scratch = true →
              ∃ b', done b' ∧ b'.oslots = b.oslots ∧ cellsRead b'.scratch d (16 * n) = bs ∧ (∀ y, (y < d ∨ d + 16 * n ≤ y) → cellGet b'.scratch y = cellGet b.scratch y) ∧
                ∀ g, b'.full.contains g = (b.full.contains g || (List.range n).any fun j => d / 16 + j = g)) ∧
            (2 ^ 31 ≤ d → (b.slots ≤ k ∨ b.partner k = true ∨ x.valid = false ∨ imageBytes x.hdr < 16 * n) → ends (.hostPlace c slot) (sent s) 15 none) ∧
            (2 ^ 31 ≤ d → k < b.slots → b.partner k = false → x.valid = true → 16 * n ≤ imageBytes x.hdr →
              (0 < x.readers → exec (.hostPlace c slot) s = .next { s with nextId := s.nextId + 1, sends := s.sends ++
                [⟨s.nextId, none, none, 0, .place d bs (List.replicate n false), A, true, BitVec.ofNat 16 (field 24 4), own.extractLsb' 48 16, none, some a⟩] }) ∧
              (x.readers = 0 → cellsWf x.img = true → cellsWf (b.oslot (k + 1)).img = true → ∃ b', done b' ∧ b'.scratch = b.scratch ∧ b'.full = b.full ∧
                (b'.oslot k).data = true ∧ (b'.oslot k).stamp = (x.stampBy 0).stamp ∧ (b'.oslot k).claimed = x.claimed ∧ (b'.oslot k).hdr = x.hdr ∧ (b'.oslot k).soff = x.soff ∧
                (b'.oslot k).scale = x.scale ∧ (b'.oslot k).scl = x.scl ∧ cellsRead (b'.oslot k).img 0 (Nat.min (16 * n) 2048) = bs.take 2048 ∧
                (∀ y, Nat.min (16 * n) 2048 ≤ y → cellGet (b'.oslot k).img y = cellGet x.img y) ∧
                (2048 < 16 * n → cellsRead (b'.oslot (k + 1)).img 0 (16 * n - 2048) = bs.drop 2048) ∧
                ∀ z, z ≠ k → (z ≠ k + 1 ∨ 16 * n ≤ 2048) → b'.oslot z = b.oslot z))) ∧
          (∀ v, target = none → s.saved.find? (fun v => v.warps.any fun w => w.name = A) = some v →
            let b := v.blk.readBack (s.fields v.blk.ctx v.blk.area)
            let held (b' : Block) : State := { sent s with saved := s.saved.map fun (y : Saved) => if y.warps.any (fun (w : Warp) => w.name = A) then { y with blk := b' } else y }
            (b.life ≠ .saved ∨ s.reserveRoom (s.poolPages b.ctx b.area (b.areaSize b.freed)) = true) → s.placeFault b d (16 * n) = none →
            d < 2 ^ 31 → d % 16 = 0 → d + 16 * n ≤ b.part → cellsWf b.scratch = true →
            ∃ b', ends (.hostPlace c slot) ((held b').storePool b'.ctx b'.area ((held b').blockRecord b' b'.freed)) 0 none ∧
              cellsRead b'.scratch d (16 * n) = bs ∧ (∀ y, (y < d ∨ d + 16 * n ≤ y) → cellGet b'.scratch y = cellGet b.scratch y) ∧
              b' = { b with scratch := b'.scratch, full := b'.full, spoison := b'.spoison } ∧
              ∀ g, b'.full.contains g = (b.full.contains g || (List.range n).any fun j => d / 16 + j = g)))))

/-! ## Events: issue ports, contexts, launches and blocks -/

/-- R209, R210: a free issue port goes to a ready split: the handler warp's, else one that has lost 16 choices, else one of
the highest priority, and among equals the one whose last win lies furthest back; every other ready split has lost once more. The win begins a run, in
which what the split has written to `sig` takes effect.
The model's choices here: assumptions 55, 100. -/
def Obligations.Arbitration : Prop :=
  ∀ (s : State) (core part : Nat), s.active = false → part < 4 →
    let go := Instr.runArbitration core part
    let port := (s.getCore core).ports[part]?
    let l := s.candidates core part
    let sp (a : Warp × Nat) : Split := a.1.splitAt a.2
    (∀ a ∈ l, a.1 ∈ s.warps ∧ a.2 < 4 ∧ a.1.key.core = core ∧ a.1.exited = false ∧ (sp a).st = .live ∧ (sp a).nextIssue ≤ s.clock) ∧
    (((∃ h, port = some (some h)) ∨ s.clock < ((s.getCore core).portAt[part]?).getD 0 ∨ l = []) → exec go s = .next s) ∧
    (port = some none → ((s.getCore core).portAt[part]?).getD 0 ≤ s.clock → l ≠ [] → (s.warps.map (·.key)).Nodup →
      ∃ a ∈ l, ∃ t, exec go s = .next t ∧ (t.getCore core).ports[part]? = some (some (a.1.key, a.2)) ∧
        t = { s with nextId := s.nextId + 1, tick := s.tick + 1, cores := t.cores, warps := t.warps } ∧
        ((∃ b ∈ l, b.1.key.slot = 4) → a.1.key.slot = 4) ∧
        ((∀ b ∈ l, b.1.key.slot ≠ 4) →
          ((∃ b ∈ l, 16 ≤ (sp b).lost) → 16 ≤ (sp a).lost) ∧
          ((∀ b ∈ l, (sp b).lost < 16) → ∀ b ∈ l, s.prioOf b.1 ≤ s.prioOf a.1 ∧ (s.prioOf b.1 = s.prioOf a.1 → (sp a).lastWin ≤ (sp b).lastWin)) ∧
          ∀ b ∈ l, (b.1.key, b.2) ≠ (a.1.key, a.2) → ∃ v, t.getWarp b.1.key = some v ∧ (v.splitAt b.2).lost = (sp b).lost + 1) ∧
        (∃ v, t.getWarp a.1.key = some v ∧ (v.splitAt a.2).late = [] ∧ ∀ x, (sp a).late = [(0x09, x)] → (v.splitAt a.2).sig = x.setWidth 32) ∧
        ((sp a).late = [] → ∃ v, t.getWarp a.1.key = some v ∧ (v.splitAt a.2).runLen = 0 ∧ (v.splitAt a.2).lost = 0 ∧
          (v.splitAt a.2).pc = (sp a).pc ∧ (v.splitAt a.2).mask = (sp a).mask ∧ v.sregs = a.1.sregs))

/-- R259, R231, R286, R261 to R263, R276, R265: a context is created from a descriptor that keeps its limits, over a cellar range
that then reads 0, and its reset takes everything of it away; a launch record is taken, and starts or is refused once its
dependence is known.
The model's choices here: assumptions 12, 21, 46, 47, 48. -/
def Obligations.ContextsAndLaunches : Prop :=
  ∀ s : State, s.active = false →
    (∀ (c : Nat) (desc : DWord),
      let field (o n : Nat) : Nat := s.rdN (desc.toNat + o) n
      let go := Instr.contextCreate c desc
      let fits := c < 256 ∧ desc.toNat % 128 = 0 ∧ (∀ x, s.getCtx c = some x → x.live = false) ∧ field 0 8 % 4096 = 0 ∧ field 14 2 < 8 ∧
        ((field 14 2).testBit 2 = true → field 16 8 % 12 = 0) ∧ field 32 4 % 2 ^ 17 = 0 ∧ field 36 4 % 2 ^ 17 = 0 ∧ field 32 4 + field 36 4 ≤ 2 ^ 26 ∧
        field 56 8 % 4096 = 0 ∧ field 64 8 % 4096 = 0
      (¬fits → exec go s = .next s) ∧
      (fits → ∃ t x, exec go s = .next t ∧ t = { s with ctxs := t.ctxs, cellar := t.cellar, clines := t.clines } ∧ t.getCtx c = some x ∧ x.live = true ∧
        x.root = field 0 8 ∧ x.domain.toNat = field 8 2 ∧ x.pkey.toNat = field 10 2 ∧ x.keyid = field 12 2 % 2048 ∧ x.checking = (field 14 2).testBit 0 ∧
        x.debugging = (field 14 2).testBit 1 ∧ x.handler = (field 14 2).testBit 2 ∧ x.entry.toNat = field 16 8 ∧ x.service.toNat = field 24 8 ∧
        x.cbase = field 32 4 ∧ x.csize = field 36 4 ∧ x.t1 = (if field 40 4 = 0 then 200 else field 40 4) ∧ x.t2 = (if field 44 4 = 0 then 2000 else field 44 4) ∧
        x.lost.toNat = field 48 4 ∧ x.pool = field 56 8 ∧ x.poolSize = field 64 8 ∧ x.pre = .running ∧ x.halted = false ∧
        (∀ k, k ≠ c → t.getCtx k = s.getCtx k) ∧
        ∀ a, cellGet t.cellar a = if field 32 4 ≤ a ∧ a < field 32 4 + field 36 4 then 0 else cellGet s.cellar a)) ∧
    (∀ c release, (s.getCtx c = none → exec (.contextReset c release) s = .next s) ∧
      ∀ x, s.getCtx c = some x → ∃ t y, exec (.contextReset c release) s = .next t ∧ t.getCtx c = some y ∧ y.live = false ∧ y.pre = .lost ∧ y.areas = [] ∧
        (release = true → y.csize = 0 ∧ ∀ a, x.cbase ≤ a → a < x.cbase + x.csize → cellGet t.cellar a = 0) ∧
        (∀ k, k ≠ c → t.getCtx k = s.getCtx k) ∧ t.wtab = s.wtab.filter (fun e => e.ctx != c) ∧ (∀ o ∈ t.ops, o.ctx ≠ c) ∧
        (∀ b ∈ t.blks, b.ctx ≠ c) ∧ (∀ v ∈ t.saved, v.blk.ctx ≠ c) ∧
        (∀ l ∈ s.launches, l.ctx = c → l.status = 2 → (t.launch l.id).map (·.status) = some 5) ∧
        ∀ w ∈ s.warps, w.level = .user → w.exited = false → s.ctxOfBlk w.key.core w.key.slot = c → ∀ e, s.entry w.name = some e → 1 ≤ e.st → e.st ≤ 4 →
          (t.names.find? fun y => y.name = w.name).map (fun e => (e.st, e.loc)) = some (5, 0)) ∧
    (∀ (q : Nat) (base : DWord) (log2n prio c : Nat),
      let go := Instr.launchQueueConfig q base log2n prio c
      let fits := q < 64 ∧ base.toNat % 128 = 0 ∧ log2n ≤ 12 ∧ prio ≤ 3 ∧ c < 256
      (¬fits → exec go s = .next s) ∧
      (fits → ∃ t, exec go s = .next t ∧ t = { s with queues := t.queues } ∧ t.queue q = some ⟨q, base.toNat, log2n, prio, c, 0, 0, none⟩ ∧
        ∀ k, k ≠ q → t.queue k = s.queue k)) ∧
    (∀ q, (s.queue q = none → exec (.launchRecordTake q) s = .next s ∧ exec (.launchDependenceMet q) s = .next s) ∧
      ∀ x, s.queue q = some x →
        (x.headLaunch ≠ none → exec (.launchRecordTake q) s = .next s) ∧ (x.headLaunch = none → exec (.launchDependenceMet q) s = .next s) ∧
        (x.headLaunch = none → cellsWf s.mem = true → (∀ l ∈ s.launches, l.id ≠ s.nextId) →
          let a := x.base + 128 * (x.head.toNat % 2 ^ x.log2n)
          (∀ j < 4, s.inReserve (.mem (a + 120 + j) 0) = false) →
          let field (o n : Nat) : Nat := s.rdN (a + o) n
          let flags := field 41 1
          let fits := field 0 8 % 12 = 0 ∧ field 8 8 % 4 = 0 ∧ field 24 4 ≤ 2 ^ 24 ∧ 1 ≤ field 28 1 ∧ field 28 1 ≤ 32 ∧ 3 ≤ field 29 1 ∧ field 29 1 ≤ 11 ∧ field 30 1 ≤ 16 ∧
            field 31 1 ≤ 64 ∧ field 32 4 ≤ 2097152 ∧ field 32 4 % 16 = 0 ∧ field 36 2 ≤ 768 ∧ field 38 2 ≤ 256 ∧ field 40 1 ≤ 16 ∧ flags < 8 ∧
            (flags.testBit 2 = true → field 16 8 ≠ 0) ∧ 1 ≤ field 44 4 ∧ field 48 8 % 4096 = 0 ∧ field 72 1 ≤ 3 ∧ (field 72 1 = 3 → field 80 8 % 4 = 0) ∧
            (field 8 8 ≠ 0 → field 88 4 % 4 = 0)
          let takes (head : Option Nat) (st : Nat) : Prop := ∃ t l, exec (.launchRecordTake q) s = .next t ∧ t.launch s.nextId = some l ∧ l.status = st ∧ t.rdN (a + 120) 4 = st ∧
            t.queue q = some { x with head := x.head + 1, tail := if x.tail = x.head then x.head + 1 + BitVec.ofNat 32 (Config.tailAhead s.tick % 2 ^ x.log2n) else x.tail, headLaunch := head } ∧
            l.queue = q ∧ l.prio = x.prio ∧ l.ctx = x.ctx ∧ l.entry.toNat = field 0 8 ∧ l.stream.toNat = field 8 8 ∧ l.card.toNat = field 16 8 ∧ l.blocks = field 24 4 ∧
            l.nw = field 28 1 ∧ l.w = 16 * field 29 1 ∧ l.fixed = field 30 1 ∧ l.waitshare = field 31 1 ∧ l.part = field 32 4 ∧ l.acc = field 36 2 ∧ l.slots = field 38 2 ∧
            l.bars = field 40 1 ∧ l.clusterBars = flags.testBit 0 ∧ l.standing = flags.testBit 1 ∧ l.wlimit = field 44 4 ∧ l.cask = field 48 8 ∧
            l.nameBase.toNat = field 56 8 ∧ l.completion.toNat = field 64 8 ∧ l.depKind = field 72 1 ∧ l.depOp.toNat = field 76 4 ∧ l.depObj.toNat = field 80 8 ∧
            t.names = s.names ∧ t.warps = s.warps ∧ t.blks = s.blks
          (¬fits → takes none 4) ∧ (fits → flags.testBit 1 = true → (field 24 4 ≠ 1 ∨ s.stream (field 42 1) = none) → takes none 4) ∧
          (fits → flags.testBit 1 = true → field 24 4 = 1 → ∀ y, s.stream (field 42 1) = some y →
            (y.ctx = x.ctx → y.launch = none → takes (some s.nextId) 1 ∧ ∃ t, exec (.launchRecordTake q) s = .next t ∧ (t.stream (field 42 1)).map (·.launch) = some (some s.nextId)) ∧
            ((y.ctx ≠ x.ctx ∨ y.launch ≠ none) → takes none 4)) ∧ (fits → flags.testBit 1 = false → takes (some s.nextId) 1)) ∧
        (∀ i l, x.headLaunch = some i → s.launch i = some l → cellsWf s.mem = true → (∀ j < 4, s.inReserve (.mem (l.recAddr + 120 + j) 0) = false) →
          let go := Instr.launchDependenceMet q
          let isolated (n : DWord) : Prop := s.nameHome n ∈ s.fab.revoked ∨ s.fab.homeModule ∈ s.fab.revoked
          let free (tick : Nat) := ∀ b < l.blocks, ∀ w < l.nw,
            let n := ((s.getCtx l.ctx).map (·.domain)).getD 0 ++ BitVec.ofNat 48 (l.nameBase.toNat + 32 * b + w)
            (s.entry n).all (fun e => e.st = 5) = true ∧ (s.remote n = true → ¬isolated n → (Config.remoteStatus (tick + (32 * b + w))).getLsbD 0 = false)
          let ends (names : List NameEntry) (st : Nat) : Prop := ∃ t, exec go s = .next t ∧ (t.queue q).map (·.headLaunch) = some none ∧
            (t.launch i).map (·.status) = some st ∧ t.rdN (l.recAddr + 120) 4 = st ∧ t.names = names ∧ t.warps = s.warps ∧ t.blks = s.blks
          let begins (names : List NameEntry) (tick : Nat) : Prop := (¬free tick → ends names 4) ∧ (free tick → 0 < l.blocks → ends names 2) ∧
            (free tick → l.blocks = 0 → l.completion = 0 → ends names 3)
          let start (names : List NameEntry) : Prop := begins names s.tick
          (l.depKind = 0 → start s.names) ∧
          ((l.depKind = 1 ∨ l.depKind = 2) → s.remote l.depObj = true →
            (¬isolated l.depObj → (∀ y ∈ s.fab.links, y.up = false) → exec go s = .next s) ∧ (isolated l.depObj → ends s.names 4) ∧
            (¬isolated l.depObj → (∃ y ∈ s.fab.links, y.up = true) → let st := Config.remoteStatus s.tick
              (st = 0 → begins s.names (s.tick + 1)) ∧ ((st = 3 ∨ st = 15) → ends s.names 4) ∧ (st ≠ 0 → st ≠ 3 → st ≠ 15 → exec go s = .next s))) ∧
          (l.depKind = 1 ∨ l.depKind = 2 → s.remote l.depObj = false → s.entry l.depObj = none → ends s.names 4) ∧
          (∀ e, s.remote l.depObj = false → s.entry l.depObj = some e →
            (l.depKind = 1 → (e.count < l.depOp.toNat → exec go s = .next s) ∧
              (l.depOp.toNat ≤ e.count → start ({ e with count := e.count - l.depOp.toNat } :: s.names.filter fun y => y.name != e.name))) ∧
            (l.depKind = 2 → (e.gen ≠ l.depOp.setWidth 16 → ends s.names 4) ∧ (e.gen = l.depOp.setWidth 16 → e.st = 5 → start s.names) ∧
              (e.gen = l.depOp.setWidth 16 → e.st ≠ 5 → exec go s = .next s))) ∧
          (l.depKind = 3 → ∀ pa key, translate s (((s.getCtx l.ctx).map (·.root)).getD 0) ⟨true, false, false, true, false, 2⟩ l.depObj.toNat = .ok (pa, key) →
            (leNat (s.readMem key pa 4) = l.depOp.toNat → exec go s = .next s) ∧ (leNat (s.readMem key pa 4) ≠ l.depOp.toNat → start s.names)) ∧
          (l.depKind = 3 → ∀ e, translate s (((s.getCtx l.ctx).map (·.root)).getD 0) ⟨true, false, false, true, false, 2⟩ l.depObj.toNat = .error e → exec go s = .next s)))

/-- R260, R264, R10, R222, R223, R271, R272, R292, R291, R288, R259, R306, R308, R309: a block starts on the first core, from that of its rank on, that has
room for it, its warps with the registers of R10, unless another block was ready for the core before; it takes over the item queue that
its core has kept for its context; an activation starts the block of its kernel; a saved block goes on where it was, as its records in
the save pool hold it, on its own core, or on another where its core's resources were freed or it migrates.
The model's choices here: assumptions 11, 20, 31, 68, 88, 102, 107. -/
def Obligations.BlockStarts : Prop :=
  ∀ s : State, s.active = false →
    let starts (t : State) (l : Launch) (core slot rank : Nat) (entry : DWord) : Prop := ∀ r < l.nw, ∃ w, t.getWarp ⟨core, slot, r⟩ = some w ∧
      w.level = .user ∧ w.exited = false ∧ w.w = l.w ∧ w.wbase = 0 ∧ w.links = [] ∧ w.preds = 1 ∧ w.pend = [] ∧ (∀ n, w.readV n = zeroVec) ∧
      (∀ n, w.readU n = if n = 0 then l.card.setWidth 32 else if n = 1 then (l.card >>> 32).setWidth 32 else if n = 2 then BitVec.ofNat 32 rank
        else if n = 3 then BitVec.ofNat 32 r else if n = 4 then BitVec.ofNat 32 l.nw else 0) ∧
      (w.splitAt 0).st = .live ∧ (w.splitAt 0).pc = entry ∧ (w.splitAt 0).mask = allLanes ∧ (w.splitAt 0).sig = 0 ∧
      (∀ j, 0 < j → j < 4 → (w.splitAt j).st = .free) ∧
      w.name = ((s.getCtx l.ctx).map (·.domain)).getD 0 ++ BitVec.ofNat 48 (l.nameBase.toNat + 32 * rank + r)
    let lives (c : Nat) : Prop := s.freezing c = false ∧ ∃ x, s.getCtx c = some x ∧ x.live = true
    let fits (ctx nw fixed w part slots bars core : Nat) : Prop :=
      let hs := s.blks.filter (fun b => b.core = core) ++ (s.saved.filter fun v => v.blk.core = core && !v.blk.freed).map (·.blk)
      let sum (f : Block → Nat) : Nat := (hs.map f).sum
      s.fab.ready = true ∧ core < s.fab.map.length ∧ s.dieDown core = false ∧ lives ctx ∧ hs.length < 4 ∧ (∀ h ∈ hs, h.ctx ≠ ctx) ∧
        sum (·.part) + part ≤ 2097152 ∧ sum (·.slots) + slots ≤ 256 ∧ sum (·.bars) + bars ≤ 16 ∧
        ∀ p < 4, sum (fun x => (x.nw + 3 - p) / 4) + (nw + 3 - p) / 4 ≤ 16 ∧
          sum (fun x => (x.nw + 3 - p) / 4 * (x.fixed + x.w)) + (nw + 3 - p) / 4 * (fixed + w) ≤ 1024
    let room (l : Launch) (core : Nat) : Prop := fits l.ctx l.nw l.fixed l.w l.part l.slots l.bars core
    let first (l : Launch) (core : Nat) : Prop := ∃ i < 640, core = (l.offered + i) % 640 ∧ room l core ∧ ∀ j < i, ¬room l ((l.offered + j) % 640)
    let restores (v : Saved) (core : Nat) : Prop := (v.transit = true → core = v.dest) ∧
      (v.blk.freed = true → fits v.blk.ctx v.blk.nw v.blk.fixed v.blk.w v.blk.part v.blk.slots v.blk.bars core) ∧ (v.blk.freed = false → core = v.blk.core ∧ lives v.blk.ctx)
    let goesTo (v : Saved) (core : Nat) : Prop := restores v core ∧
      (core = v.blk.core ∨ ¬restores v v.blk.core ∧ ∃ i < 640, core = (v.blk.rank + i) % 640 ∧ ∀ j < i, ¬restores v ((v.blk.rank + j) % 640))
    let before (a b c d : Nat) : Prop := a < c ∨ a = c ∧ b < d
    let savedFirst (core at' rank : Nat) : Prop := ∃ v ∈ s.saved, v.swapped = true ∧ goesTo v core ∧ ∃ c, v.readyAt = some c ∧ before c v.blk.rank at' rank
    (∀ i core, (s.launch i = none → exec (.blockAdmit i core) s = .next s) ∧ ∀ l, s.launch i = some l →
      let slot := s.freeSlot core
      let launchFirst := ∃ m ∈ s.launches, m.status = 2 ∧ m.offered < m.blocks ∧
        ((l.prio < m.prio ∧ ∃ k, first m k) ∨ (m.prio = l.prio ∧ before m.readyAt m.offered l.readyAt l.offered ∧ first m core))
      let turn := l.status = 2 ∧ l.offered < l.blocks ∧ first l core ∧ ¬savedFirst core l.readyAt l.offered ∧ ¬launchFirst
      (¬turn → exec (.blockAdmit i core) s = .next s) ∧
      (first l core → slot < 4 ∧ ∀ h ∈ s.holders core, h.slot ≠ slot) ∧
      (turn → l.standing = true → ∃ t b, exec (.blockAdmit i core) s = .next t ∧ (t.launch i).map (·.offered) = some (l.offered + 1) ∧ t.warps = s.warps ∧ t.names = s.names ∧
        t.getBlk core slot = some b ∧ b.life = .resident ∧ b.ctx = l.ctx ∧ b.launch = i ∧ b.act = none ∧ b.draining = false) ∧
      (turn → l.standing = false → (∀ w ∈ s.warps, w.key.core ≠ core ∨ w.key.slot ≠ slot) →
        ∃ t b, exec (.blockAdmit i core) s = .next t ∧ (t.launch i).map (·.offered) = some (l.offered + 1) ∧ starts t l core slot l.offered l.entry ∧
          t.getBlk core slot = some b ∧ b.life = .resident ∧ b.ctx = l.ctx ∧ b.launch = i ∧ b.rank = l.offered ∧ b.part = l.part ∧ b.acc = l.acc ∧ b.slots = l.slots ∧
          b.scratch = [] ∧ b.full = [] ∧ b.items = (s.kept core l.ctx).take 256 ∧ t.kept core l.ctx = (s.kept core l.ctx).drop 256 ∧
          (∀ n, b.tile n = ⟨n, false, 0, false⟩) ∧ (∀ n, (b.oslot n).claimed = false) ∧
          b.barrier.length = l.bars ∧ (∀ x ∈ b.barrier, x.gen = 0 ∧ x.arr = 0 ∧ x.wait = 0 ∧ x.abn = false ∧ x.memSeq = (l.stream != 0) ∧ ∀ j < 32, x.mem.getLsbD j = decide (j < l.nw)) ∧
          (l.stream ≠ 0 → b.seq.ended = false ∧ b.seq.pc = l.stream) ∧
          (0 < l.acc → (s.getCore core).accown.getLsbD 2 = false →
            (t.getCore core).accown = BitVec.ofNat 3 (4 + slot) ∧ ∀ k < l.acc, ∀ r < 32, (t.getCore core).accRow k r = zeroVec))) ∧
    (∀ n, (s.stream n = none → exec (.activationStart n) s = .next s) ∧ ∀ x, s.stream n = some x →
      (x.queue = [] ∨ x.launch = none ∨ x.running ≠ none → exec (.activationStart n) s = .next s) ∧
      ∀ a rest i l b, x.queue = a :: rest → x.launch = some i → s.launch i = some l → x.running = none → x.out.getLsbD 15 = false → b.nw = l.nw →
        s.blks.find? (fun b => b.launch = l.id && b.life = .resident && !b.draining && b.act.isNone) = some b →
        ∃ t b', exec (.activationStart n) s = .next t ∧ starts t l b.core b.slot b.rank (if a.amend then x.amend else l.entry) ∧
          t.getBlk b.core b.slot = some b' ∧ b'.act = some a ∧ b'.scratch = [] ∧
          (t.stream n).map (fun y => (y.running, y.queue)) = some (some a, rest) ∧
          (a.amend = false → x.wstate a.window = 2 → (t.stream n).map (fun y => y.wstate a.window) = some 3)) ∧
    (∀ i rank core, (s.saved.find? (fun v => v.blk.launch = i && v.blk.rank = rank) = none → exec (.blockRestore i rank core) s = .next s) ∧
      ∀ v, s.saved.find? (fun v => v.blk.launch = i && v.blk.rank = rank) = some v →
        let slot := if v.blk.freed then s.freeSlot core else v.blk.slot
        let unstartedFirst (at' : Nat) : Prop := ∃ l ∈ s.launches, l.status = 2 ∧ l.offered < l.blocks ∧ first l core ∧ before l.readyAt l.offered at' v.blk.rank
        let turn := restores v core ∧ (v.swapped = true → goesTo v core ∧ ∃ c, v.readyAt = some c ∧ ¬unstartedFirst c ∧ ¬savedFirst core c v.blk.rank)
        let s1 := s.onCtx v.blk.ctx s.rereadDesc
        let u := s1.readRecords v
        (¬turn → exec (.blockRestore i rank core) s = .next s) ∧
        (turn → s.sends = [] → (∀ w ∈ s.warps, w.key.core ≠ core ∨ w.key.slot ≠ slot) → s.getBlk core slot = none → (v.warps.map (·.key.rank)).Nodup →
          ∃ t b, exec (.blockRestore i rank core) s = .next t ∧ t.mem = s.mem ∧ t.getBlk core slot = some b ∧ b.life = .resident ∧ b.freed = false ∧ b.rank = rank ∧ b.ctx = v.blk.ctx ∧
            b.scratch = u.blk.scratch ∧ b.full = u.blk.full ∧ b.tiles = v.blk.tiles ∧ b.barrier = u.blk.barrier ∧ b.seq.pc = u.blk.seq.pc ∧ b.inbox = u.blk.inbox ∧
            b.items = ((if core = v.blk.core then u.blk.items else []) ++ s.kept core v.blk.ctx).take 256 ∧ (∀ y ∈ t.saved, y.blk.launch ≠ i ∨ y.blk.rank ≠ rank) ∧
            (∀ c, s.getCtx v.blk.ctx = some c → (t.getCtx v.blk.ctx).map (·.root) = some (s.rdN c.desc 8)) ∧
            (∀ w ∈ v.warps, w.exited = false → ∀ e, s.entry w.name = some e → (e.st = 3 ∨ e.st = 4) → ∃ e', t.names.find? (fun y => y.name = w.name) = some e' ∧ (e'.st = 1 ∨ e'.st = 2)) ∧
            ∀ w ∈ u.warps, ∃ w', t.getWarp ⟨core, slot, w.key.rank⟩ = some w' ∧ w'.name = w.name ∧ w'.sregs = w.sregs ∧ w'.vfix = w.vfix ∧ w'.ring = w.ring ∧
              w'.preds = w.preds ∧ w'.masks = w.masks ∧ w'.q = w.q ∧ w'.wbase = w.wbase ∧ w'.links = w.links ∧ w'.dq = w.dq ∧ w'.exited = w.exited ∧
              ∀ j < 4, (w'.splitAt j).st = (w.splitAt j).st ∧ (w'.splitAt j).pc = (w.splitAt j).pc ∧ (w'.splitAt j).mask = (w.splitAt j).mask ∧ (w'.splitAt j).sig = (w.splitAt j).sig) ∧
        let at' (o : Nat) (f : Nat → Nat → Prop) (kept : Prop) : Prop := match translate s1 (((s1.getCtx v.blk.ctx).map (·.root)).getD 0) ⟨true, true, false, false, false, 2⟩ o with
          | .ok (pa, key) => f pa key
          | .error _ => kept
        (∀ w ∈ v.warps, (v.areaOf w.key = none → w ∈ u.warps) ∧ ∀ a, v.areaOf w.key = some a → ∃ x ∈ u.warps, x.key = w.key ∧ x.name = w.name ∧
          (∀ k : Fin 96, at' (a + (3328 + 4 * k.val)) (fun pa key => x.sregs[k] = BitVec.ofNat 32 (leNat (s1.readMem key pa 4))) (x.sregs[k] = w.sregs[k])) ∧
          (∀ k : Fin 16, ∀ l : Fin 32, at' (a + (1280 + 128 * k.val + 4 * l.val)) (fun pa key => x.vfix[k][l] = BitVec.ofNat 32 (leNat (s1.readMem key pa 4))) (x.vfix[k][l] = w.vfix[k][l])) ∧
          ∀ j < 4, (w.splitAt j).st ≠ .free → at' (a + 32 * j) (fun pa key => (x.splitAt j).pc = BitVec.ofNat 64 (leNat (s1.readMem key pa 8))) ((x.splitAt j).pc = (w.splitAt j).pc)) ∧
        (v.blk.freed = false → u.blk.scratch = v.blk.scratch ∧ u.blk.full = v.blk.full) ∧
        (v.blk.freed = true → ∀ k < v.blk.part, at' (v.blk.area + (1440 + 16 * v.blk.slots + k)) (fun pa key => cellGet u.blk.scratch k = BitVec.ofNat 8 (leNat (s1.readMem key pa 1)))
          (cellGet u.blk.scratch k = cellGet v.blk.scratch k)))

/-- R286 to R290, R270, R271, R277, R347: a pre-emption request names blocks; T1 and T2; a named block at a boundary is saved with the
values of its warps, and after T1 with its splits at their region entries; the launch unit's swap, its rule and its choice; a migration.
The model's choices here: assumptions 20, 41, 42, 87, 91. -/
def Obligations.Preemption : Prop :=
  ∀ s : State, s.active = false →
    (∀ c cores free, let go := Instr.preemptRequest c cores free
      (s.getCtx c = none → exec go s = .next s) ∧ ∀ x, s.getCtx c = some x →
        let named (b : Block) : Bool := b.ctx = c && b.life = .resident && cores.contains b.core
        ((x.live = false ∨ ∀ b ∈ s.blks, named b = false) → exec go s = .next s) ∧
        (x.live = true → (∃ b ∈ s.blks, named b = true) → ∃ t, exec go s = .next t ∧
          t = { s with blks := t.blks, ctxs := t.ctxs } ∧ t.blks = s.blks.map (fun b => if named b then { b with draining := true } else b) ∧
          t.getCtx c = some (if x.pre = .draining ∨ x.pre = .forced then { x with preFree := x.preFree || free }
            else { x with pre := .draining, preSince := s.wall, preFree := free }) ∧ ∀ k, k ≠ c → t.getCtx k = s.getCtx k)) ∧
    (∀ c, (s.getCtx c = none → exec (.t1Expiry c) s = .next s ∧ exec (.t2Expiry c) s = .next s) ∧ ∀ x, s.getCtx c = some x →
      (∃ t, exec (.t1Expiry c) s = .next t ∧ t = { s with ctxs := t.ctxs } ∧ (∀ k, k ≠ c → t.getCtx k = s.getCtx k) ∧
        t.getCtx c = some (if x.pre = .draining ∧ x.preSince + 19000 * x.t1 ≤ s.wall then { x with pre := .forced } else x)) ∧
      ((x.pre ≠ .draining ∧ x.pre ≠ .forced) ∨ s.wall < x.preSince + 19000 * x.t2 → exec (.t2Expiry c) s = .next s) ∧
      ((x.pre = .draining ∨ x.pre = .forced) → x.preSince + 19000 * x.t2 ≤ s.wall → ∃ t y, exec (.t2Expiry c) s = .next t ∧ t.getCtx c = some y ∧
        y.live = false ∧ y.pre = .lost ∧ (∀ b ∈ t.blks, b.ctx ≠ c) ∧ t.wtab = s.wtab.filter (fun e => e.ctx != c))) ∧
    (∀ core slot, (s.getBlk core slot = none → exec (.blockSave core slot) s = .next s) ∧ ∀ b, s.getBlk core slot = some b →
      let ws := s.warpsOf b
      let room (c : Ctx) (free : Bool) : Option (List (Nat × Nat)) := allocAreas c c.areas ((ws.filter fun w => !w.exited).map Warp.areaSize ++ [b.areaSize free])
      let reserve (areas : List (Nat × Nat)) (free : Bool) : Bool := s.poolRoom b.ctx (areas ++ if free then [(s.tileArea b.ctx b.core, 4096 * b.acc)] else [])
      let kept (w : Warp) := (w.key.rank, w.name, w.sregs, w.vfix, w.ring, w.preds, w.masks, w.q, w.links, w.wbase)
      let saves (i : Instr) (areas : List (Nat × Nat)) (free swapped : Bool) : Prop := ∃ t v, exec i s = .next t ∧ t.getBlk core slot = none ∧
        (∀ w ∈ t.warps, w.ofBlk core slot = false) ∧ t.saved = s.saved ++ [v] ∧ v.areas = areas ∧ v.swapped = swapped ∧ v.blk.freed = free ∧
        v.blk.launch = b.launch ∧ v.blk.rank = b.rank ∧ v.blk.scratch = b.scratch ∧ v.blk.full = b.full ∧ v.blk.items = b.items ∧
        v.warps.map kept = ws.map (fun w => kept w.settleAll) ∧
        (free = true → (s.getCore core).accown = BitVec.ofNat 3 (4 + slot) → (t.getCore core).accown = 0) ∧
        ((∀ x ∈ s.blks, x.ctx = b.ctx → x.draining = true → x.core = core ∧ x.slot = slot) → i = .blockSave core slot → (t.getCtx b.ctx).map (·.pre) = some .saved)
      (b.draining = false → exec (.blockSave core slot) s = .next s) ∧
      (∀ c, s.getCtx b.ctx = some c → c.pre = .draining → b.draining = true → b.migrate = none → s.saveReady b false = true →
        (room c c.preFree = none → exec (.blockSave core slot) s = .next s) ∧
        ∀ areas, room c c.preFree = some areas → (reserve areas c.preFree = false → exec (.blockSave core slot) s = .next s) ∧
          (reserve areas c.preFree = true → saves (.blockSave core slot) areas c.preFree false)) ∧
      (∀ c areas, s.getCtx b.ctx = some c → c.pre = .forced → b.draining = true → b.migrate = none → s.saveReady b true = true → room c c.preFree = some areas →
        reserve areas c.preFree = true → ∃ t v, exec (.blockSave core slot) s = .next t ∧ t.getBlk core slot = none ∧ (∀ w ∈ t.warps, w.ofBlk core slot = false) ∧
          t.saved = s.saved ++ [v] ∧ v.areas = areas ∧ v.swapped = false ∧ v.blk.freed = c.preFree ∧ v.blk.launch = b.launch ∧ v.blk.rank = b.rank ∧ v.blk.scratch = b.scratch ∧
          ((∀ x ∈ s.blks, x.ctx = b.ctx → x.draining = true → x.core = core ∧ x.slot = slot) → (t.getCtx b.ctx).map (·.pre) = some .saved) ∧
          ∀ w ∈ ws, w.exited = false → ∃ w' ∈ v.warps, w'.key.rank = w.key.rank ∧ w'.name = w.name ∧ w'.pend = [] ∧
            (∀ j < 4, let p := w.splitAt j
              let q := w'.splitAt j
              (p.goesBack = false → q = p) ∧ (p.goesBack = true → q.st = (if p.st = .atReconv then .live else p.st) ∧ q.pc = p.region ∧ q.sig = p.saved ∧ q.region = p.region ∧ q.mask = p.mask ∧ q.wait = none)) ∧
            ((∀ o ∈ s.ops, ∀ sz cl pid cells ls, o.kind ≠ .feload sz cl pid cells ls) → kept w' = kept w.settleAll) ∧
            ((∀ e ∈ w.recon, e.deferred = []) → (∀ q ∈ w.dqWait.toList, q = []) → ∀ n < 4, ((w'.dq[n]?).getD []).map (·.id) =
              (((w.dq[n]?).getD []).filter fun e => (List.range 4).all fun j => !(w.splitAt j).goesBack ||
                !((e.sp = j || e.mask &&& (w.splitAt j).mask != 0) && decide ((w.splitAt j).mark ≤ e.id))).map (·.id))) ∧
      (∀ i l c areas, s.launch i = some l → s.swapVictim l = some b → s.swapRule l = true → s.getCtx b.ctx = some c → room c true = some areas → b.migrate = none →
        (reserve areas true = false → exec (.blockSwap i core) s = .next s) ∧ (reserve areas true = true → saves (.blockSwap i core) areas true true)) ∧
      (∀ i l c, s.launch i = some l → s.swapVictim l = some b → s.getCtx b.ctx = some c → room c true = none → exec (.blockSwap i core) s = .next s) ∧
      (∀ c dest areas, s.getCtx b.ctx = some c → b.life = .resident → b.draining = false → c.live = true → room c true = some areas →
        ∃ t, exec (.migrationBegin core slot dest) s = .next t ∧ t = { s with blks := t.blks, ctxs := t.ctxs } ∧
          t.getBlk core slot = some { b with draining := true, migrate := some dest } ∧
          t.getCtx b.ctx = some (if c.pre = .draining ∨ c.pre = .forced then c else { c with pre := .draining, preSince := s.wall, preFree := false }))) ∧
    (∀ b, s.saveReady b false = true ↔ b.life = .resident ∧ s.dieDown b.core = false ∧ s.seqServed b = false ∧ s.portHeld b = false ∧
      (∀ w ∈ s.warpsOf b, s.warpAtBoundary b w = true ∧ (∀ x ∈ s.sends, x.key ≠ some w.key) ∧ (∀ x ∈ s.sops, x.2.1 ≠ w.key) ∧ (∀ q ∈ w.dqWait.toList, q = []) ∧
        ∀ o ∈ s.ops, o.key = w.key → o.done = false → o.kind.isCopy = true ∨ ∃ ab n g m v f, o.kind = .fold ab n g m v f) ∧
      b.seq.flights = [] ∧ (∀ o ∈ b.oslots, ∀ e ∈ o.events, e.who.isSome = true) ∧ ∀ o ∈ s.ops, o.touches b.core b.slot = false) ∧
    (∀ b w, s.warpAtBoundary b w = true ↔ w.exited = true ∨ w.halted = false ∧ (∃ j, (w.splitAt j).st = .live) ∧ ∀ j < 4, (w.splitAt j).st ≠ .atBarrier ∧
      ((w.splitAt j).st = .live → (∃ mn wk, (w.splitAt j).wait = some (.nwait mn wk)) ∨ (∃ n g, (w.splitAt j).wait = some (.njoin n g)) ∨ (w.splitAt j).wait = some .joined ∨
        (∃ x, (w.splitAt j).wait = some (.wwait x)) ∨
        (((w.splitAt j).wait = none ∨ (w.splitAt j).wait = some .retry) ∧ ∃ x ∈ s.nextChain b.ctx w (w.splitAt j), isTake b w (w.splitAt j) x.2 = true))) ∧
    (∀ l : Launch, let bs := s.blks.filter fun b => b.launch = l.id && b.life = .resident
      let waiting (b : Block) : Nat := ((s.warpsOf b).filter Warp.parked).length
      let share := (bs.head?.map (·.waitshare)).getD 64
      let d := (bs.map waiting).sum
      let candidate (b : Block) : Prop := b ∈ bs ∧ b.draining = false ∧ s.saveReady b false = true
      (s.swapRule l = true ↔ share < 64 ∧ 1 ≤ d ∧ share * (bs.map fun b => (s.warpsOf b).length).sum ≤ 64 * d ∧
        (l.status = 2 ∧ l.offered < l.blocks ∨ ∃ v ∈ s.saved, v.blk.launch = l.id ∧ v.swapped = true ∧
          ((∀ w ∈ v.warps, w.parked = false) ∨ ∃ w ∈ v.warps, w.parked = true ∧ ∃ p ∈ w.running, s.waitMet w p = true))) ∧
      (s.swapVictim l = none ↔ ∀ b, ¬candidate b) ∧
      ∀ b, s.swapVictim l = some b → candidate b ∧ ∀ x, candidate x → waiting x < waiting b ∨ waiting x = waiting b ∧ b.since ≤ x.since) ∧
    (∀ i core, (s.launch i = none → exec (.blockSwap i core) s = .next s) ∧ ∀ l, s.launch i = some l →
      (s.swapVictim l = none ∨ s.swapRule l = false ∨ (∀ b, s.swapVictim l = some b → b.core ≠ core) → exec (.blockSwap i core) s = .next s) ∧
      ((∀ b ∈ s.blks, b.launch = l.id → b.waitshare = 64) ∨ (∀ w ∈ s.warps, w.parked = false) → exec (.blockSwap i core) s = .next s)) ∧
    (∀ core slot dest v c, s.getBlk core slot = none → s.saved.find? (fun v => v.blk.core = core && v.blk.slot = slot && !v.blk.freed) = some v → s.getCtx v.blk.ctx = some c →
      (allocArea c c.areas (v.blk.areaSize true) = none → exec (.migrationBegin core slot dest) s = .next s) ∧
      ∀ a, allocArea c c.areas (v.blk.areaSize true) = some a → s.poolRoom v.blk.ctx [(a, v.blk.areaSize true), (s.tileArea v.blk.ctx v.blk.core, 4096 * v.blk.acc)] = true →
        ∃ t y, exec (.migrationBegin core slot dest) s = .next t ∧ t.saved.find? (fun y => y.blk.launch = v.blk.launch && y.blk.rank = v.blk.rank) = some y ∧
          y.transit = true ∧ y.dest = dest ∧ y.blk.freed = true ∧ y.blk.area = a ∧ y.blk.scratch = v.blk.scratch ∧ y.blk.full = v.blk.full ∧ t.warps = s.warps ∧ t.blks = s.blks ∧
          ((s.getCore core).accown = BitVec.ofNat 3 (4 + slot) → (t.getCore core).accown = 0)) ∧
    (∀ core slot dest v, s.getBlk core slot = none → (∀ y ∈ s.saved, y.blk.core = core → y.blk.slot = slot → y.blk.freed = true) →
      s.saved.find? (fun v => v.blk.core = core && v.blk.slot = slot) = some v →
      ∃ t, exec (.migrationBegin core slot dest) s = .next t ∧ t = { s with saved := t.saved, names := t.names } ∧
        (∀ y ∈ t.saved, y.blk.launch = v.blk.launch → y.blk.rank = v.blk.rank → y.transit = true ∧ y.dest = dest) ∧
        ∀ w ∈ v.warps, w.exited = false → ∀ e, s.entry w.name = some e → e.st = 3 →
          (t.names.find? fun y => y.name = w.name).map (fun y => (y.st, y.transitAt)) = some (4, s.wall)) ∧
    (∀ name, (s.entry name = none → exec (.transitTimeout name) s = .next s) ∧ ∀ e, s.entry name = some e →
      (e.st ≠ 4 ∨ s.wall < e.transitAt + 38000 → exec (.transitTimeout name) s = .next s) ∧
      (e.st = 4 → e.transitAt + 38000 ≤ s.wall → s.sends = [] →
        exec (.transitTimeout name) s = .next { s with
          names := { e with st := 3 } :: s.names.filter fun y => y.name != e.name
          saved := s.saved.map fun (v : Saved) => if v.warps.any fun (w : Warp) => w.name = name then { v with transit := false } else v }))

/-! ## Events: faults, streams, checkpoints and the module -/

/-- R335, R196, R197, R208, R297, R274, R280, R292, R333, R334: a handler starts on the oldest record that may be served, under the mask of
the split that faulted; the copies that a drain leaves are cancelled; a fault record is written while the queue has room, and its token frees its agent; the management settings.
The model's choices here: assumptions 24, 48, 73, 108. -/
def Obligations.HandlersAndFaultQueue : Prop :=
  ∀ s : State, s.active = false →
    (∀ core, let c := s.getCore core
      let held (v : Served) : Prop := v.firmware = false ∧ ∃ x, s.getCtx v.ctx = some x ∧ x.halted = true
      ((c.handling ≠ none ∨ ∀ v ∈ c.records, held v) → exec (.handlerEntry core) s = .next s) ∧
      (∀ pre v r, c.handling = none → c.records = pre ++ v :: r → (∀ x ∈ pre, held x) → ¬held v → (∀ w ∈ s.warps, w.key ≠ ⟨core, 4, 0⟩) →
        ∃ t w, exec (.handlerEntry core) s = .next t ∧ t = { s with cores := t.cores, warps := s.warps ++ [w] } ∧ t.getWarp ⟨core, 4, 0⟩ = some w ∧
          (t.getCore core).handling = some v ∧ (t.getCore core).records = pre ++ r ∧ w.served = some v ∧ w.level = (if v.firmware then .firmware else .handler) ∧
          w.readU 0 = BitVec.ofNat 32 v.addr ∧ w.readU 1 = BitVec.ofNat 32 (v.addr / 2 ^ 32) ∧ w.readU 2 = BitVec.ofNat 32 v.cause ∧ (∀ n, 3 ≤ n → w.readU n = 0) ∧
          (w.splitAt 0).st = .live ∧
          (w.splitAt 0).mask = (match v.seq, s.getWarp v.key with | false, some x => (x.splitAt v.sp).mask | _, _ => allLanes) ∧
          (w.splitAt 0).pc = if v.firmware then s.fu.entry else ((s.getCtx v.ctx).map (·.entry)).getD 0) ∧
      ((c.drainUntil = none ∨ c.handling = none) → exec (.drainWindowExpiry core) s = .next s) ∧
      ∀ d v, c.drainUntil = some d → c.handling = some v → (s.wall < d → exec (.drainWindowExpiry core) s = .next s) ∧
        (d ≤ s.wall → ∃ t, exec (.drainWindowExpiry core) s = .next t ∧ t.mem = s.mem ∧ t.names = s.names ∧
          ∀ o ∈ t.ops, o.ctx = v.ctx → o.key ≠ ⟨core, 4, 0⟩ → o.kind.isCopy = true → o.id < c.drainFrom → o.done = true ∨ o.cancelled = true)) ∧
    ((∀ r ∈ s.fu.recs, r.written = true) → exec .faultQueueAppend s = .next s) ∧
    (2 ^ s.fu.fqLog ≤ (s.fu.fqTail - s.fu.fqHead).toNat → exec .faultQueueAppend s = .next s) ∧
    (∀ r, s.fu.recs.find? (fun r => !r.written) = some r → (s.fu.fqTail - s.fu.fqHead).toNat < 2 ^ s.fu.fqLog → cellsWf s.mem = true →
      let a := s.fu.fqBase + 32 * (s.fu.fqTail.toNat % 2 ^ s.fu.fqLog)
      (∀ j < 32, s.inReserve (.mem (a + j) 0) = false) →
      ∃ t, exec .faultQueueAppend s = .next t ∧ t = { s with mem := t.mem, lineKey := t.lineKey, ck := t.ck, fu := { s.fu with fqTail := s.fu.fqTail + 1, recs := t.fu.recs } } ∧
        t.rdN a 2 = r.ctx % 2 ^ 16 ∧ t.rdN (a + 2) 2 = r.core % 2 ^ 16 ∧ t.rdN (a + 4) 1 = r.wslot % 2 ^ 8 ∧ t.rdN (a + 5) 1 = r.agent % 2 ^ 8 ∧
        t.rdN (a + 6) 1 = r.kind % 2 ^ 8 ∧ t.rdN (a + 7) 1 = r.access % 2 ^ 8 ∧ t.rdN (a + 8) 8 = r.va.toNat ∧ t.rdN (a + 16) 8 = r.token % 2 ^ 64 ∧ t.rdN (a + 24) 8 = 0 ∧
        (∀ y, (y < a ∨ a + 32 ≤ y) → s.inReserve (.mem y 0) = false → t.readMem 0 y 1 = s.readMem 0 y 1) ∧
        (r.who ≠ none → { r with written := true } ∈ t.fu.recs) ∧ (∀ x ∈ s.fu.recs, x.token ≠ r.token → x ∈ t.fu.recs) ∧ ∀ x ∈ t.fu.recs, x.token = r.token → x.written = true) ∧
    (∀ token : DWord, ∃ t, exec (.faultResumeToken token) s = .next t ∧ t = { s with fu := { s.fu with recs := t.fu.recs } } ∧
      ∀ x, x ∈ t.fu.recs ↔ x ∈ s.fu.recs ∧ ¬(x.token = token.toNat ∧ x.written = true)) ∧
    (∀ (idx : Nat) (v : DWord), let n := v.toNat
      let sets (r : MgmtReg) (ok : Prop) (t : State) : Prop := (ok → exec (.mgmtRegisterWrite r idx v) s = .next t) ∧ (¬ok → exec (.mgmtRegisterWrite r idx v) s = .next s)
      sets .faultArea (n % 64 = 0) { s with fu := { s.fu with area := n } } ∧ sets .handlerEntry (n % 12 = 0) { s with fu := { s.fu with entry := v } } ∧
      sets .zeroPage True { s with fu := { s.fu with zeroPage := n } } ∧
      sets .tileSaveArea True { s with fu := { s.fu with tileSave := (idx, n) :: s.fu.tileSave.filter fun p => p.1 != idx } } ∧
      sets .errorRingBase True { s with fu := { s.fu with errBase := n, errNext := 0 } } ∧ sets .errorRingLen True { s with fu := { s.fu with errLen := n, errNext := 0 } } ∧
      sets .faultQueueBase (n % 32 = 0) { s with fu := { s.fu with fqBase := n } } ∧ sets .faultQueueLog (4 ≤ n ∧ n ≤ 16) { s with fu := { s.fu with fqLog := n } } ∧
      sets .faultQueueHead True { s with fu := { s.fu with fqHead := v.setWidth 32 } } ∧ sets .directory True { s with directory := n } ∧
      sets .homeModule True { s with fab := { s.fab with homeModule := n } } ∧
      (n % 4096 = 0 → ∀ x, s.getCtx idx = some x → ∃ t, exec (.mgmtRegisterWrite .hostPage idx v) s = .next t ∧ t = { s with ctxs := t.ctxs } ∧
        t.getCtx idx = some { x with hostPage := n } ∧ ∀ k, k ≠ idx → t.getCtx k = s.getCtx k))

/-- R299, R303, R304, R308, R347: a stream is configured from a descriptor that keeps its limits, and begins empty; an idle source does
not hold the watermark back; a kernel is unbound from its stream.
The model's choices here: assumptions 14, 46, 48, 56, 57. -/
def Obligations.StreamEvents : Prop :=
  ∀ s : State, s.active = false →
    (∀ (n : Nat) (desc : DWord),
      let field (o k : Nat) : Nat := s.rdN (desc.toNat + o) k
      let go := Instr.streamConfigure n desc
      let fits := n ≤ 255 ∧ desc.toNat % 128 = 0 ∧ (∀ y, s.stream n = some y → y.launch = none ∧ y.running = none) ∧ field 0 8 % 64 = 0 ∧ field 0 8 < 2 ^ 57 ∧
        4 ≤ field 8 1 ∧ field 8 1 ≤ 20 ∧ field 9 1 ≤ 32 ∧ field 12 2 / 2 ^ 12 % 8 = 0 ∧ field 14 2 ≠ 0 ∧ 1 ≤ field 16 8 ∧ 1 ≤ field 24 8 ∧ field 16 8 % field 24 8 = 0 ∧
        field 16 8 / field 24 8 ≤ 64 ∧ field 40 8 % 12 = 0 ∧ field 48 8 % 64 = 0 ∧ 4 ≤ field 56 1 ∧ field 56 1 ≤ 20 ∧ field 60 4 ≤ 65536 ∧ field 64 8 % 16 = 0
      (¬fits → exec go s = .next s) ∧
      (s.ck = none → s.configured (s.readStream n desc.toNat) ≠ none) ∧ (fits → s.configured (s.readStream n desc.toNat) = none → exec go s = .next s) ∧
      (fits → s.configured (s.readStream n desc.toNat) ≠ none → ∃ t x, exec go s = .next t ∧ t.stream n = some x ∧ (∀ k, k ≠ n → t.stream k = s.stream k) ∧ x.desc = desc.toNat ∧ x.ringBase = field 0 8 ∧ x.log2n = field 8 1 ∧
        x.p = field 9 1 ∧ x.ctx = field 10 2 ∧ x.out.toNat = field 12 2 ∧ x.size = field 16 8 ∧ x.slide = field 24 8 ∧ x.late = field 32 8 ∧ x.amend.toNat = field 40 8 ∧
        x.ovf = field 48 8 ∧ x.ovfLog = field 56 1 ∧ x.resn = field 60 4 ∧ x.res = field 64 8 ∧
        x.sources.map (fun q => (q.n, q.timeout, q.idle, q.swm)) = ((List.range 16).filter fun i => (field 14 2).testBit i).map (fun i => (i, field (128 + 16 * i) 4, false, 0)) ∧
        x.head = 0 ∧ x.tail = 0 ∧ x.wm = 0 ∧ x.outwm = 0 ∧ x.ovfcnt = 0 ∧ x.held = none ∧ x.windows = [] ∧ x.queue = [] ∧ x.running = none ∧ x.launch = none ∧
        t.warps = s.warps ∧ t.blks = s.blks ∧ t.names = s.names)) ∧
    (∀ n, (s.stream n = none → exec (.streamUnbind n) s = .next s ∧ ∀ src, exec (.sourceIdleTimeout n src) s = .next s) ∧ ∀ x, s.stream n = some x →
      (x.launch = none → exec (.streamUnbind n) s = .next s) ∧
      (∀ i l, x.launch = some i → s.launch i = some l →
        ((∃ b ∈ s.blks, b.launch = i ∧ b.act ≠ none) → ∃ t, exec (.streamUnbind n) s = .next t ∧ t.stream n = some { x with launch := none } ∧ t.launch i = some { l with unbound := true } ∧
          (∀ k, k ≠ i → t.launch k = s.launch k) ∧ (∀ q ∈ t.queues, q.headLaunch ≠ some i) ∧ t.blks = s.blks) ∧
        ((∀ b ∈ s.blks, b.launch = i → b.act = none) → ∃ t, exec (.streamUnbind n) s = .next t ∧ t.stream n = some { x with launch := none } ∧ (t.launch i).map (·.status) = some 3 ∧ (∀ q ∈ t.queues, q.headLaunch ≠ some i) ∧
          (∀ v ∈ t.saved, v.blk.launch ≠ i) ∧ ∀ b, s.blks.find? (fun b => b.launch = i) = some b → t.getBlk b.core b.slot = none ∧
            ∀ c ∈ t.cores, ∀ r ∈ c.mailbox, r.core ≠ b.core ∨ r.ctx ≠ l.ctx)) ∧
      ∀ src, ((∀ q ∈ x.sources, q.n = src → q.idle = true ∨ q.timeout = 0 ∨ s.time19 - q.activity ≤ 19000 * q.timeout) → exec (.sourceIdleTimeout n src) s = .next s) ∧
        ((∃ q ∈ x.sources, q.n = src ∧ q.idle = false ∧ q.timeout ≠ 0 ∧ 19000 * q.timeout < s.time19 - q.activity) → x.out.getLsbD 15 = false →
          ∃ t y, exec (.sourceIdleTimeout n src) s = .next t ∧ t.stream n = some y ∧ (∀ k, k ≠ n → t.stream k = s.stream k) ∧
            y.sources = x.sources.map (fun q => if q.n = src then { q with idle := true } else q) ∧ x.wm ≤ y.wm ∧
            (x.wm < y.wm → ∀ q ∈ y.sources, q.idle = false → y.wm ≤ q.swm) ∧
            ((∃ q ∈ y.sources, q.idle = false) → ∃ q ∈ y.sources, q.idle = false ∧ q.swm ≤ y.wm) ∧ t.warps = s.warps ∧ t.blks = s.blks))

/-- R345 to R347, R331, R338: a checkpoint drains its blocks, freezes its granules, copies a granule before it is written, sends each granule
once, round-robin, and ends when every one has been acknowledged.
The model's choices here: assumptions 22, 26, 27, 48, 89, 90. -/
def Obligations.Checkpoints : Prop :=
  ∀ s : State, s.active = false →
    (∀ desc : DWord,
      let a := desc.toNat
      let list := s.rdN a 8
      let n := s.rdN (a + 8) 4
      let go := Instr.checkpointStart desc
      let named (b : Block) : Prop := b.life = .resident ∧ ∃ i < n, b.ctx = s.rdN (list + 16 * i + 12) 2
      ((∃ k, s.ck = some k ∧ (k.phase = 1 ∨ k.phase = 2)) ∨ a % 64 ≠ 0 ∨ s.rdN (a + 24) 4 = 0 ∨ 16 < s.rdN (a + 24) 4 → exec go s = .next s) ∧
      (s.ck = none → a % 64 = 0 → 1 ≤ s.rdN (a + 24) 4 → s.rdN (a + 24) 4 ≤ 16 → s.rdN (a + 48) 8 % 65536 = 0 → (∀ i < n, s.rdN (list + 16 * i) 8 % 65536 = 0) → cellsWf s.mem = true →
        ∃ t k, exec go s = .next t ∧ t.ck = some k ∧ k.phase = 1 ∧ k.desc = a ∧ k.grans = [] ∧ k.base = s.rdN (a + 48) 8 ∧ k.reserve = s.rdN (a + 56) 4 ∧ (∀ m, m ∈ k.fenced ↔ m ∈ k.peers.map (·.1) ∧ m ∈ s.fab.revoked) ∧ k.peers.length = s.rdN (a + 24) 4 ∧
          t.rdN (a + 28) 4 = 1 ∧ (∀ b ∈ t.blks, named b → b.draining = true) ∧
          (∀ b ∈ s.blks, named b → ∀ x, s.getCtx b.ctx = some x → t.getCtx b.ctx = some (if x.pre = .draining ∨ x.pre = .forced then x else
            { x with pre := .draining, preSince := s.wall, preFree := false })) ∧
          (∀ b ∈ s.blks, ¬named b → b ∈ t.blks) ∧ t.warps = s.warps)) ∧
    ((s.ck = none ∨ ∃ k, s.ck = some k ∧ k.phase ≠ 1) → exec .checkpointFreeze s = .next s) ∧
    (∀ k, s.ck = some k → k.phase = 1 → ((∃ b ∈ s.blks, b.ctx ∈ k.ctxs ∧ b.draining = true) → exec .checkpointFreeze s = .next s) ∧
      ((∀ b ∈ s.blks, b.ctx ∈ k.ctxs → b.draining = false) → s.sends = [] → cellsWf s.mem = true →
        (k.desc + 64 ≤ k.base / 4096 * 4096 ∨ k.base / 4096 * 4096 + 65536 * k.reserve ≤ k.desc) →
        ∃ t m, exec .checkpointFreeze s = .next t ∧ t.ck = some m ∧ m.phase = (if ∀ p ∈ k.peers, p.1 ∈ k.fenced then 4 else if m.grans = [] then 3 else 2) ∧ (∀ g ∈ m.grans, g.st ≤ 1) ∧
          t.rdN (m.desc + 28) 4 = m.phase ∧ m.desc = k.desc ∧ m.peers = k.peers ∧ m.drained = k.drained)) ∧
    (∀ o, (s.granule o = none → exec (.frozenGranuleWrite o) s = .next s ∧ exec (.checkpointGranuleSend o) s = .next s ∧ exec (.checkpointPeerAck o) s = .next s) ∧
      ∀ g k, s.granule o = some g → s.ck = some k →
        (g.st ≠ 0 → exec (.frozenGranuleWrite o) s = .next s) ∧
        (∀ p r, g.pages = p :: r → s.frozen (4096 * p) = some g →
          let used := List.range k.cellar ++ k.grans.filterMap (·.copy)
          let holders := (k.grans.filter fun x => x.st = 0 && x.pages.contains p).length
          (k.reserve < used.length + holders → exec (.frozenGranuleWrite o) s = .next s) ∧
          (used.length + holders ≤ k.reserve → cellsWf s.mem = true → (∀ q ∈ g.pages, q < k.base / 4096 ∨ k.base / 4096 + 16 * k.reserve ≤ q) →
            ∃ t n, exec (.frozenGranuleWrite o) s = .next t ∧ n < k.reserve ∧ n ∉ used ∧ (∀ j < n, j ∈ used) ∧
              t = { s with mem := t.mem, lineKey := t.lineKey, poison := t.poison, ck := some { k with grans := k.grans.map fun x => if x.ordinal = o then { x with st := 1, copy := some n } else x } } ∧
              (∀ j < 16, ∀ q, g.pages[j]? = some q → (∀ b < 4096, cellGet t.mem (4096 * (k.base / 4096 + 16 * n + j) + b) = cellGet s.mem (4096 * q + b)) ∧
                ∀ l < 64, t.keyOf (64 * (k.base / 4096 + 16 * n + j) + l) = s.keyOf (64 * q + l) ∧ (64 * (k.base / 4096 + 16 * n + j) + l ∈ t.poison ↔ 64 * q + l ∈ s.poison)) ∧
              ∀ a, (a / 4096 < k.base / 4096 + 16 * n ∨ k.base / 4096 + 16 * n + 16 ≤ a / 4096) → cellGet t.mem a = cellGet s.mem a)) ∧
        (2 ≤ g.st → exec (.checkpointGranuleSend o) s = .next s) ∧
        (∀ p, g.st < 2 → k.fenced = [] → k.peers[k.next % k.peers.length]? = some p → (s.reaches p.1 = false → exec (.checkpointGranuleSend o) s = .next s) ∧
          (s.reaches p.1 = true → cellsWf s.mem = true → (∀ j < 8, s.inReserve (.mem (k.desc + 32 + j) 0) = false) → ∃ t, exec (.checkpointGranuleSend o) s = .next t ∧
          (t.granule o).map (fun x => (x.st, x.pages)) = some (2, g.pages) ∧ (t.granule o).map (·.peer) = some p.1 ∧
          t.ck.map (fun m => (m.next, m.drained)) = some (k.next + 1, k.drained + 1) ∧ t.rdN (k.desc + 32) 8 = (k.drained + 1) % 2 ^ 64)) ∧
        (g.st ≠ 2 → exec (.checkpointPeerAck o) s = .next s) ∧
        (g.st = 2 → cellsWf s.mem = true → ∃ t m, exec (.checkpointPeerAck o) s = .next t ∧ t.ck = some m ∧ (∀ x ∈ m.grans, x.ordinal = o → x.st = 3 ∧ x.copy = none) ∧
          ((∀ x ∈ m.grans, x.st = 3) → m.phase = 3 ∧ t.rdN (k.desc + 28) 4 = 3) ∧ ((∃ x ∈ m.grans, x.st ≠ 3) → m.phase = 2 ∧ t = { s with ck := some m })))

/-- R331, R333, R338 to R344, R347 to R350: links, fencing and inbound flits; bring-up, the spare and the dies; the clock, the cap and
the report; scrubbing; and the host's accesses to device memory.
The model's choices here: assumptions 7, 12, 23, 48, 58, 59, 60, 76, 86, 106. -/
def Obligations.ModuleEvents : Prop :=
  ∀ s : State, s.active = false →
    (∀ link, let recent (l : LinkSt) : List Nat := l.replays.filter fun x => decide (s.wall ≤ x + 19000000)
      (∃ t, exec (.linkFlitReplay link) s = .next t ∧ t = { s with fab := { s.fab with links := t.fab.links } } ∧ ∀ i, t.fab.links[i]? = (s.fab.links[i]?).map fun l =>
        if i = link ∧ l.up = true then { up := decide ((recent l).length < 64), replays := recent l ++ [s.wall] } else l) ∧
      (∃ t, exec (.linkDown link) s = .next t ∧ t = { s with fab := { s.fab with links := t.fab.links } } ∧ ∀ i, t.fab.links[i]? = (s.fab.links[i]?).map fun l =>
        if i = link ∧ 64 < (recent l).length then { l with up := false } else l)) ∧
    (∀ m, ∃ t, exec (.fenceRevoke m) s = .next t ∧ m ∈ t.fab.revoked ∧ (∀ k ∈ s.fab.revoked, k ∈ t.fab.revoked) ∧ t.warps = s.warps ∧ t.names = s.names ∧
      (∀ x, x ∈ t.sends ↔ x ∈ s.sends ∧ x.src ≠ some m ∧ (m = s.fab.homeModule → x.src = none)) ∧
      (s.ck = none → t = { s with fab := { s.fab with revoked := t.fab.revoked }, sends := t.sends }) ∧
      (∀ k, s.ck = some k → k.phase ≠ 2 → (∃ z, (m, z) ∈ k.peers) → t.ck = some { k with fenced := if m ∈ k.fenced then k.fenced else k.fenced ++ [m] }) ∧
      (∀ k, s.ck = some k → k.phase = 2 → (∃ z, (m, z) ∈ k.peers) → let rest := (k.peers.map (·.1)).filter fun p => p != m && !k.fenced.contains p
        rest ≠ [] → ∃ dst ∈ rest, t.ck = some { k with fenced := (if m ∈ k.fenced then k.fenced else k.fenced ++ [m]), grans := k.grans.map fun (g : Granule) => if g.st = 2 && g.peer = m then { g with peer := dst } else g }) ∧
      ∀ k z, s.ck = some k → k.phase = 2 → k.peers = [(m, z)] → cellsWf s.mem = true → t.ck = some { k with fenced := if m ∈ k.fenced then k.fenced else k.fenced ++ [m], phase := 4, grans := [] } ∧
        t.rdN (k.desc + 28) 4 = 4) ∧
    (∀ key src op, let go := Instr.inboundFlit key src op
      ((src ∈ s.fab.revoked ∨ s.fab.homeModule ∈ s.fab.revoked) → exec go s = .next s) ∧
      (src ∉ s.fab.revoked → s.fab.homeModule ∉ s.fab.revoked → (∀ c ∈ s.ctxs, c.live = false ∨ c.pkey ≠ key) → ∃ t, exec go s = .next t ∧
        t = { s with mem := t.mem, lineKey := t.lineKey, ck := t.ck, fu := { s.fu with errNext := t.fu.errNext } } ∧ (s.fu.errLen = 0 → t = s) ∧
        (0 < s.fu.errLen → cellsWf s.mem = true → let a := s.fu.errBase + 16 * (s.fu.errNext % s.fu.errLen)
          (∀ j < 16, s.inReserve (.mem (a + j) 0) = false) → t.fu.errNext = s.fu.errNext + 1 ∧ t.rdN a 1 = 7 ∧ t.rdN (a + 1) 1 = 0xFF ∧ t.rdN (a + 6) 2 = src % 2 ^ 16 ∧ t.rdN (a + 8) 1 = 0)) ∧
      (src ∉ s.fab.revoked → s.fab.homeModule ∉ s.fab.revoked → (∃ c ∈ s.ctxs, c.live = true ∧ c.pkey = key) →
        (∀ va n, op = .bulkGet va n → exec go s = .next s) ∧
        ∀ n k gen any dom e, op = .signal n k gen any dom → s.entry n = some e →
          (e.st = 4 → exec go s = .next { s with nextId := s.nextId + 1, sends := s.sends ++ [⟨s.nextId, none, none, 0, .sig k.toNat, n, any, gen, dom, some src, none⟩] }) ∧
          (e.st ∈ [1, 2, 3] → n.extractLsb' 48 16 = dom → (any = true ∨ e.gen = gen) → e.count + k.toNat < 2 ^ 32 → (∀ x ∈ s.sends, x.id ≠ s.nextId) →
            exec go s = .next { s with nextId := s.nextId + 1, names := { e with count := e.count + k.toNat } :: s.names.filter fun x => x.name != e.name }))) ∧
    (∀ (h : List (BitVec 36)) (spare : Nat),
      (s.fab.ready = true → exec (.bringUp h spare) s = .next s) ∧
      (s.fab.ready = false → h.length = 21 → spare < 21 → (∀ d < 21, let m := (h[d]?).getD 0
          (∀ k < 9, ((List.range 4).filter fun j => m.getLsbD (4 * k + j)).length ≤ 1) ∧ ((List.range 36).filter fun c => m.getLsbD c).length ≤ 4 ∧
          (d ≠ spare → ((List.range 36).filter fun c => m.getLsbD c).length = 4)) →
        ∃ t, exec (.bringUp h spare) s = .next t ∧ t = { s with fab := t.fab, fwmem := t.fwmem, cellar := [], clines := [], names := [], wtab := [] } ∧
          cellsRead t.fwmem 0 t.fab.firmware.flatten.length = t.fab.firmware.flatten ∧
          t.fab.ready = true ∧ t.fab.harvest = h ∧ t.fab.spare = spare ∧ t.fab.spareSt = 0 ∧ t.fab.down = [] ∧
          t.fab.firmware = Config.firmwareImages.filter Config.imageSigned ∧ t.fab.map.length = 640 ∧ t.fab.map.Pairwise (· < ·) ∧ ∀ p ∈ t.fab.map, p / 36 < 21 ∧ p / 36 ≠ spare ∧ ((h[p / 36]?).getD 0).getLsbD (p % 36) = false)) ∧
    exec .sparePowerUp s = .next (if s.fab.ready = true ∧ s.fab.spareSt = 0 then { s with fab := { s.fab with spareSt := 1 } } else s) ∧
    (∀ die, let on (c : Nat) : Prop := ((s.fab.map[c]?).getD 0) / 36 = die
      ((s.fab.spareSt ≠ 1 ∨ die = s.fab.spare ∨ 21 ≤ die ∨ (∃ b ∈ s.blks, on b.core) ∨ ∃ v ∈ s.saved, on v.blk.core ∧ v.blk.freed = false) → exec (.rehome die) s = .next s) ∧
      (s.fab.spareSt = 1 → die ≠ s.fab.spare → die < 21 → (∀ b ∈ s.blks, ¬on b.core) → (∀ v ∈ s.saved, on v.blk.core → v.blk.freed = true) →
        ∃ t, exec (.rehome die) s = .next t ∧ t = { s with fab := { s.fab with map := t.fab.map, spareSt := 2, down := t.fab.down } } ∧ die ∈ t.fab.down ∧
          t.fab.map.length = s.fab.map.length ∧ ∀ c p, t.fab.map[c]? = some p → (¬on c ∧ s.fab.map[c]? = some p) ∨ (on c ∧ (s.fab.map[c]? = some p ∨ p / 36 = s.fab.spare))) ∧
      (s.fab.spareSt = 1 → die ≠ s.fab.spare → die < 21 → (∀ b ∈ s.blks, ¬on b.core) → (∀ v ∈ s.saved, on v.blk.core → v.blk.freed = true) →
        let place (k : Nat) : Nat := ((s.fab.spareClusters die)[k]?).getD 0
        let sizes := (List.range 9).map fun k => (s.fab.enabled die k).length
        (∀ k < 9, place k < 9 ∧ (s.fab.enabled die k).length ≤ (s.fab.enabled s.fab.spare (place k)).length) →
        ((List.range s.fab.map.length).filter fun c => decide (on c)).length ≤ sizes.sum →
        ∃ t, exec (.rehome die) s = .next t ∧ (∀ c < s.fab.map.length, on c → ∃ p, t.fab.map[c]? = some p ∧ p / 36 = s.fab.spare) ∧
          ∀ k < 9, ∀ i < (s.fab.enabled die k).length, ∀ c, ((List.range s.fab.map.length).filter fun c => decide (on c))[(sizes.take k).sum + i]? = some c →
            t.fab.map[c]? = ((s.fab.enabled s.fab.spare (place k))[i]?).map fun x => 36 * s.fab.spare + x) ∧
      ∃ t, exec (.dieOvertemp die) s = .next t ∧ t = { s with fab := { s.fab with down := t.fab.down }, blks := t.blks, ctxs := t.ctxs } ∧ die ∈ t.fab.down ∧
        (∀ b ∈ t.blks, on b.core → b.draining = true) ∧ (∀ b ∈ s.blks, ¬on b.core → b ∈ t.blks) ∧
        ∀ b ∈ s.blks, on b.core → ∀ x, s.getCtx b.ctx = some x → x.pre ≠ .draining → x.pre ≠ .forced →
          t.getCtx b.ctx = some { x with pre := .draining, preSince := s.wall, preFree := true }) ∧
    (∀ w, exec (.powerCapSet w) s = .next (if 1500 ≤ w ∧ w ≤ 3000 then { s with fab := { s.fab with cap := w } } else s)) ∧
    (∀ u, exec (.clockLowering u) s = .next (if 10 ≤ u then { s with unitsPerCycle := u } else s)) ∧
    (∀ nonce, ∃ t, exec (.attestationRequest nonce) s = .next t ∧ (s.fab.ready = false → t = s) ∧
      (s.fab.ready = true → t = { s with fab := { s.fab with report := t.fab.report } } ∧ ∃ sig, t.fab.report =
        some ⟨nonce, s.fab.firmware.flatMap Config.measurement, s.fab.harvest, s.fab.spare, s.fab.spareSt, s.fab.map, Config.identitySign sig⟩)) ∧
    (∀ u, exec (.scrubbing u false) s = .next s) ∧
    (s.fu.errLen = 0 →
      (∀ l key, ∃ t, exec (.scrubbing (.memory l) true) s = .next t ∧ t = { s with poison := t.poison } ∧ t.poisoned (.mem (64 * l) key) 64 = true ∧
        ∀ k, k ≠ l → t.poisoned (.mem (64 * k) key) 64 = s.poisoned (.mem (64 * k) key) 64) ∧
      (∀ l, ∃ t, exec (.scrubbing (.cellar l) true) s = .next t ∧ t = { s with clines := t.clines } ∧ t.cline l = { s.cline l with poison := true } ∧ ∀ k, k ≠ l → t.cline k = s.cline k) ∧
      (∀ c x l b, s.getBlk c x = some b → ∃ t, exec (.scrubbing (.scratch c x l) true) s = .next t ∧ t = { s with blks := t.blks } ∧ t.poisoned (.scratch c x (64 * l)) 64 = true ∧
        ∀ k, k ≠ l → t.poisoned (.scratch c x (64 * k)) 64 = s.poisoned (.scratch c x (64 * k)) 64) ∧
      (∀ c x n row b, s.getBlk c x = some b → (b.oslot n).claimed = true → row < 32 → ∃ t b', exec (.scrubbing (.operand c x n row) true) s = .next t ∧ t = { s with blks := t.blks } ∧
        t.getBlk c x = some b' ∧ b'.oslot n = { b.oslot n with badRows := (b.oslot n).badRows ||| (1#32 <<< row) } ∧ ∀ k, k ≠ n → b'.oslot k = b.oslot k)) ∧
    (∀ l, 0 < s.fu.errLen → cellsWf s.mem = true → let a := s.fu.errBase + 16 * (s.fu.errNext % s.fu.errLen)
      (∀ j < 16, s.inReserve (.mem (a + j) 0) = false) → ∃ t, exec (.scrubbing (.memory l) true) s = .next t ∧ t.fu.errNext = s.fu.errNext + 1 ∧ t.rdN a 1 = 5 ∧ t.rdN (a + 1) 1 = 0xFF) ∧
    (∀ pa, exec (.cxlMemHostAccess pa none) s = .next s) ∧
    (∀ pa bs, bs ≠ [] → s.reserveRoom (pagesOf pa bs.length) = false → exec (.cxlMemHostAccess pa (some bs)) s = .next s) ∧
    (∀ pa bs, s.ck = none → cellsWf s.mem = true → ∃ t, exec (.cxlMemHostAccess pa (some bs)) s = .next t ∧
      t = { s with mem := t.mem, lineKey := t.lineKey, hostq := t.hostq } ∧ t.readMem 0 pa bs.length = bs ∧
      (∀ y, (y < pa ∨ pa + bs.length ≤ y) → t.readMem 0 y 1 = s.readMem 0 y 1) ∧
      (∃ r, t.hostq = s.hostq ++ r) ∧ ∀ c x i, (s.ctxs.map (·.id)).Nodup → s.getCtx c = some x → x.hostPage ≠ 0 → i < 64 →
        s.rdN (x.hostPage + 64 * i) 4 < 2 ^ 31 → 2 ^ 31 ≤ t.rdN (x.hostPage + 64 * i) 4 →
          ⟨c, i, x.hostPage + 64 * i, t.readMem 0 (x.hostPage + 64 * i) 64⟩ ∈ t.hostq)

/-! ## The step, the encoding, and invariants -/

/-- R46, R56, R59, R210, R328, R351: a step whose one move is a split's next chain runs the instruction that the chain's word decodes to, on
the warp with its due results written, and folds the word into the signature, before a control word and after any other (the model's
order, assumptions 28, 33 and 34); a sequencer's step runs the matrix word at its program counter; a word of the firmware handler is
fetched from firmware memory; an event from outside runs as the instruction it is.
The model's choices here: assumptions 3, 28, 33, 34, 106. -/
def Obligations.StepRuns : Prop :=
  (∀ s core part k sp w, s.moves = [.chain core part k sp] → s.getWarp k = some w → step s = .next (s.asAgent k (s.ctxOfWarp w) fun u =>
    let t := issueChain u sp
    if t.issue.ended.isSome then t.freePort core part else t)) ∧
  (∀ (s : State) (sp : Nat) (pk : Packet) (x : Word) (i : Instr),
    let w := s.warp.settle s.clock
    let p := w.splitAt sp
    let n := p.slot
    let v := { w with lastSplit := sp }
    let u : State := { s with
      warp := if n = 0 then v.setSplit sp { p with presig := p.sig, folded := [] } else v
      issue := { Issue.none with pkt := p.pc, sp := sp, slot := n, next := n + 1, chain := [(n, x)], word := x } }
    let here : State := { s with warp := v }
    sp < 4 → n < 3 → p.pendCall = none → p.begun = 0 → fetchPacket { s with warp := v } s.warp.level p.pc = .ok pk → (n = 0 → pk.cause s.warp.level = none) → x = pk.word n →
    decodeWord x = .ok i → (n < 2 → (headerOf x).cb = false) → pfxOf x = none →
    (∀ h, here.chainHold s.ctx.checking v sp h [x] = .go) → here.feBlocked v sp [x] = false → here.takeHeld v sp [x] = false → here.stallHeld v [x] = false →
    (isControl x = false → ∀ t, exec i u = .next t → t.issue.ended = none → issueChain s sp = (t.foldWords [x]).afterChain [(n, x)] pk.w2) ∧
    (isControl x = false → ∀ t k, exec i u = .next t → t.issue.ended = some (.waiting k) →
      issueChain s sp = if isBarrier x = true ∧ arrives x = true then t.begin 1 else t) ∧
    (isControl x = true → (majorOf x ≠ 0x0D ∨ fld x 16 6 ≠ 1) → ∀ t, exec i (u.foldWords [x]) = .next t → (t.issue.ended = none ∨ t.issue.ended = some .taken) →
      issueChain s sp = t.afterChain [(n, x)] pk.w2)) ∧
  (∀ s core slot b, s.moves = [.seq core slot] → s.getBlk core slot = some b → step s = .next (s.asAgent ⟨core, slot, 0⟩ b.ctx seqIssue)) ∧
  (∀ s w, fetchWord s .user s.blk.seq.pc = .ok w →
    (∀ i t, decodeMatrix w = .ok i → exec i s = .next t → seqIssue s = t) ∧ ∀ c, decodeMatrix w = .error c → seqIssue s = seqTrap (.illegal c 0) s) ∧
  (∀ (s : State) (va : DWord), va.toNat < 2 ^ 57 → fetchWord s .firmware va = .ok (BitVec.ofNat 32 (leNat (cellsRead s.fwmem va.toNat 4)))) ∧
  (∀ s i r, s.moves = [.input] → s.inputs = i :: r → i.stream = .none → s.ck = none → step s = exec i { s with inputs := r })

/-- R43 to R60: words written out from their encodings, one or more of each family, and what they decode to. -/
def Obligations.DecodeWords : Prop :=
  decodeWord 0x8F140000 = .ok (.pfx 2 1 0 0 0 0) ∧ decodeWord 0x84545405 = .ok (.vaddi 20 21 5) ∧ decodeWord 0x02900005 = .ok (.call 2 5) ∧
  decodeWord 0x03412827 = .ok (.sigck 0x2827) ∧ decodeWord 0x0C060200 = .ok (.cpy 12 0 1 0) ∧ decodeWord 0x0E000007 = .ok (.trap 7) ∧
  decodeWord 0x0E400000 = .ok .rte ∧ decodeWord 0x0E851100 = .ok (.psrd 10 0x11) ∧ decodeMatrix 0x04050203 = .ok (.mmac 5 2 3) ∧
  decodeMatrix 0x1C800002 = .ok (.mset 1 2) ∧ decodeMatrix 0x24FFFFF0 = .ok (.mbnz 1 0x7FFFF0) ∧ decodeWord 0x0F000001 = .error 4

/-- R43 to R60, R167: every well-formed instruction of a stream, under every header, is what its word decodes to, and every word that is
accepted is the word of what it decodes to; so no bit of an encoding is dropped, and no two words mean one instruction.
The model's choices here: assumption 5. -/
def Obligations.EncodingsRoundTrip : Prop :=
  (∀ (h : Header) (i : Instr), i.stream = .warp → i.wf = true →
    decodeWord (encodeWord h i) = .ok i ∧ headerOf (encodeWord h i) = h ∧ decodeTableWord 32 (encodeWord h i).toNat = some i) ∧
  (∀ (w : Word) (i : Instr), decodeWord w = .ok i → encodeWord (headerOf w) i = w ∧ i.stream = .warp) ∧
  (∀ i : Instr, i.stream = .matrix → i.wf = true → decodeMatrix (encodeMatrix i) = .ok i) ∧
  (∀ (w : Word) (i : Instr), decodeMatrix w = .ok i → encodeMatrix i = w ∧ i.stream = .matrix ∧ i.wf = true)

/-- R334, R58: nothing stops the machine: in every state every instruction answers a next state, and so does every step. -/
def Obligations.NeverStops : Prop :=
  (∀ (i : Instr) (s : State), ∃ t, exec i s = .next t) ∧ ∀ s : State, ∃ t, step s = .next t

/-- R3, R5, R18, R231, R351: every step keeps memory, firmware memory, the cellar, every partition and every saved partition in their one canonical form:
addresses strictly rising, and no byte listed that an unlisted address reads as.
The model's choices here: assumption 1. -/
def Obligations.MemoryStaysCanonical : Prop :=
  ∀ s t : State, Memory.wf s = true → step s = .next t → Memory.wf t = true

/-- The machine right after reset: every memory is in its canonical form and reads 0 (the model's choice, assumption 1), and before
bring-up there is no warp, block, context, launch, name or stream, and nothing waits (R342, R264).
The model's choices here: assumptions 1, 2. -/
def Obligations.ResetState : Prop :=
  Memory.wf State.reset = true ∧ (∀ a core slot, State.reset.readPlace (.mem a 0) 1 = [0] ∧ State.reset.readPlace (.scratch core slot a) 1 = [0] ∧ State.reset.readPlace (.cellar a) 1 = [0]) ∧ State.reset.allWarps = [] ∧ State.reset.allBlks = [] ∧
  (∀ c, State.reset.getCtx c = none) ∧ (∀ n, State.reset.entry n = none) ∧ (∀ n, State.reset.stream n = none) ∧ State.reset.tlb = [] ∧ State.reset.fab.ready = false ∧
  State.reset.moves = [.tick] ∧ step State.reset = .next State.reset.cycle

end
end

