-- ==== Sys2Proof/Laws/Agents.lean ====
section
/-!
SUPPORT. What the outcome of a word is, and what the operations over agents do while no records are loaded: each says once
what the record of its key becomes, and that no other record changes. Then the answers to sends, the requests of a pre-emption,
and what a write to a special register leaves of time.
-/
namespace Sys2Proof.Machine

/-! ## Outcomes -/

theorem done_next (s : State) : done s = .next { s with issue := { s.issue with pfx := none } } := rfl

theorem finish_ok (s t : State) : finish s (.ok t) = done t := rfl
theorem finish_trap (s : State) (e : Trap) : finish s (.error (.trap e)) = .next (takeTrap e s) := rfl
theorem finish_wait (s : State) (w : Wait) : finish s (.error (.wait w)) = .next (parkOn w s) := rfl

theorem finishSeq_ok (s t : State) : finishSeq s (.ok t) = done t := rfl
theorem finishSeq_trap (s : State) (e : Trap) : finishSeq s (.error (.trap e)) = .next (seqTrap e s) := rfl
theorem finishSeq_wait (s : State) (w : Wait) : finishSeq s (.error (.wait w)) = .next (s.endIssue (.waiting w)) := rfl

/-- A word that may trap or wait always goes on. -/
theorem finish_next (s : State) (r : Res State) : ∃ t, finish s r = .next t := by
  unfold finish; split <;> exact ⟨_, rfl⟩

theorem finishSeq_next (s : State) (r : Res State) : ∃ t, finishSeq s r = .next t := by
  unfold finishSeq; split <;> exact ⟨_, rfl⟩

theorem privileged_firmware {s : State} (k : Host.Outcome State Fault Refusal) (h : s.warp.level = .firmware) : privileged s k = k := by
  simp [privileged, h]

theorem privileged_other {s : State} (k : Host.Outcome State Fault Refusal) (h : s.warp.level ≠ .firmware) :
    privileged s k = .next (takeTrap (.illegal 2 s.issue.slot) s) := by
  simp [privileged, h]

/-! ## Records, while none is loaded -/

theorem unload_off {s : State} (h : s.active = false) : s.unload = s := by simp [State.unload, h]

theorem getWarp_off {s : State} (h : s.active = false) (k : WKey) : s.getWarp k = s.warps.find? fun w => w.key = k := by
  simp [State.getWarp, h]

theorem getBlk_off {s : State} (h : s.active = false) (c x : Nat) : s.getBlk c x = s.blks.find? fun b => b.core = c && b.slot = x := by
  simp [State.getBlk, h]

theorem getCtx_off {s : State} (h : s.active = false) (c : Nat) : s.getCtx c = s.ctxs.find? fun x => x.id = c := by
  simp [State.getCtx, h]

theorem getWarp_key {s : State} {k : WKey} {w : Warp} (h : s.getWarp k = some w) : w.key = k := by
  unfold State.getWarp at h
  split at h
  · rename_i g; cases h; exact g.1
  · simpa using List.find?_some h

theorem getCtx_id {s : State} {c : Nat} {x : Ctx} (h : s.getCtx c = some x) : x.id = c := by
  unfold State.getCtx at h
  split at h
  · rename_i g; cases h; exact g.1
  · simpa using List.find?_some h

/-- A record found by a key, after every record of a key has been replaced. -/
theorem find_map_key {α β : Type} [DecidableEq β] (key : α → β) (l : List α) (k j : β) (a : α) (h : key a = k) :
    (l.map fun x => if key x = k then a else x).find? (fun x => key x = j) =
      if j = k then (l.find? fun x => key x = k).map (fun _ => a) else l.find? fun x => key x = j := by
  induction l with
  | nil => simp
  | cons x r ih =>
    simp only [List.map_cons, List.find?_cons]
    by_cases hx : key x = k
    · by_cases hj : j = k
      · subst hj; simp [hx, h]
      · have e : ¬ key a = j := fun e => hj (e.symm.trans h)
        have f : ¬ key x = j := fun e => hj (e.symm.trans hx)
        have f' : ¬ k = j := fun e => hj e.symm
        simp only [hx, ite_true, h, f', decide_false, hj, ite_false] at ih ⊢
        exact ih
    · by_cases hj : key x = j
      · have : j ≠ k := fun e => hx (hj.trans e)
        simp [hj, this]
      · simpa [hj, hx] using ih

/-- The one record of a warp's key is changed, and nothing else. -/
theorem onWarp_off {s : State} (h : s.active = false) (k : WKey) (f : Warp → Warp) (g : ∀ w, (f w).key = w.key) :
    s.onWarp k f = { s with warps := (s.onWarp k f).warps } ∧
      ∀ j, (s.onWarp k f).getWarp j = if j = k then (s.getWarp k).map f else s.getWarp j := by
  unfold State.onWarp
  cases e : s.getWarp k with
  | none => exact ⟨rfl, fun j => by by_cases hj : j = k <;> simp_all⟩
  | some w =>
    have hk := getWarp_key e
    have hs : s.setWarp (f w) = { s with warps := s.warps.map fun x => if x.key = k then f w else x } := by
      simp [State.setWarp, h, g, hk]
    refine ⟨by simp [hs], fun j => ?_⟩
    rw [getWarp_off h] at e
    dsimp only; rw [hs, getWarp_off (s := { s with warps := s.warps.map _ }) h, getWarp_off h]
    rw [find_map_key Warp.key s.warps k j (f w) (by rw [g, hk]), e]
    rfl

theorem onCtx_off {s : State} (h : s.active = false) (c : Nat) (f : Ctx → Ctx) (g : ∀ x, (f x).id = x.id) :
    s.onCtx c f = { s with ctxs := (s.onCtx c f).ctxs } ∧
      ∀ j, (s.onCtx c f).getCtx j = if j = c then (s.getCtx c).map f else s.getCtx j := by
  unfold State.onCtx
  cases e : s.getCtx c with
  | none => exact ⟨rfl, fun j => by by_cases hj : j = c <;> simp_all⟩
  | some x =>
    have hk := getCtx_id e
    have hs : s.setCtx (f x) = { s with ctxs := s.ctxs.map fun y => if y.id = c then f x else y } := by
      simp [State.setCtx, h, g, hk]
    refine ⟨by simp [hs], fun j => ?_⟩
    rw [getCtx_off h] at e
    dsimp only; rw [hs, getCtx_off (s := { s with ctxs := s.ctxs.map _ }) h, getCtx_off h]
    rw [find_map_key Ctx.id s.ctxs c j (f x) (by rw [g, hk]), e]
    rfl

/-! ## Answers, requests and time -/

/-- The answer to a send of a host thread goes to its command slot (R280). -/
theorem answer_host (s : State) {x : Send} (st : Word) {a : Nat} (h : x.host = some a) (p : x.op.isPlace = false) :
    s.answer x st = { s with sends := s.sends.filter fun y => y.id != x.id }.hostAnswer a st := by simp [State.answer, h, p]

/-- The answer to a send of a warp arrives as a result of the warp (R279). -/
theorem answer_warp (s : State) {x : Send} (st : Word) {k : WKey} (h : x.host = none) (g : x.key = some k) (p : x.op.isPlace = false) :
    s.answer x st = { s with sends := s.sends.filter fun y => y.id != x.id }.deliver k x.id st := by simp [State.answer, h, g, p]

/-- The answer to a send whose sender is gone, or is another module, changes no more than the sends in flight (R332). -/
theorem answer_gone (s : State) {x : Send} (st : Word) (h : x.host = none) (g : x.key = none) :
    s.answer x st = { s with sends := s.sends.filter fun y => y.id != x.id } := by
  simp [State.answer, h, g]

/-- The first request of a pre-emption starts its clock (R286). -/
theorem request_first {x : Ctx} (now : Nat) (free : Bool) (h : x.requested = false) :
    x.request now free = { x with pre := .draining, preSince := now, preFree := free } := by simp [Ctx.request, h]

/-- A further request leaves the stage and the clock as they are (R286, assumption 87). -/
theorem request_further {x : Ctx} (now : Nat) (free : Bool) (h : x.requested = true) :
    x.request now free = { x with preFree := x.preFree || free } := by simp [Ctx.request, h]

/-- A context with a request is under pre-emption (R286). -/
theorem request_requested (x : Ctx) (now : Nat) (free : Bool) : (x.request now free).requested = true := by
  by_cases h : x.requested = true
  · rw [request_further now free h]; exact h
  · rw [request_first now free (by simpa using h)]; rfl

/-- No write to a special register takes `time` back (R21). -/
theorem putSpecial_time (s : State) (n : Nat) (v : DWord) : s.time19 ≤ (s.putSpecial n v).time19 := by
  unfold State.putSpecial
  split
  case h_9 => exact Nat.le_max_left ..
  all_goals first | exact Nat.le_refl _ | (split <;> exact Nat.le_refl _)

/-- A write to a special register leaves the time since reset alone, which the bounds in microseconds run on (R6). -/
theorem putSpecial_wall (s : State) (n : Nat) (v : DWord) : (s.putSpecial n v).wall = s.wall := by
  unfold State.putSpecial
  split <;> first | rfl | (split <;> rfl)

end Sys2Proof.Machine
end

