-- ==== Sys2Proof/Laws/Memory.lean ====
section
/-!
SUPPORT. Memory cells: every operation keeps the canonical form, equal contents are equal lists, and what a read sees after
a write.
-/
namespace Sys2Proof.Machine

/-! ## The canonical form -/

theorem cellsFrom_mono {m : List Host.Cell} {lo hi : Nat} (h : lo ≤ hi) (k : cellsFrom hi m = true) : cellsFrom lo m = true := by
  cases m with
  | nil => rfl
  | cons c r =>
    obtain ⟨a, b⟩ := c
    simp only [cellsFrom, Bool.and_eq_true, decide_eq_true_eq] at k ⊢
    exact ⟨⟨Nat.le_trans h k.1.1, k.1.2⟩, k.2⟩

theorem cellGet_below {m : List Host.Cell} {lo a : Nat} (k : cellsFrom lo m = true) (h : a < lo) : cellGet m a = 0 := by
  induction m generalizing lo with
  | nil => rfl
  | cons c r ih =>
    obtain ⟨x, b⟩ := c
    simp only [cellsFrom, Bool.and_eq_true, decide_eq_true_eq] at k
    have : x ≠ a := by omega
    simp only [cellGet, this, if_false]
    exact ih k.2 (by omega)

theorem cellSet_from {m : List Host.Cell} {lo a : Nat} (b : Byte) (k : cellsFrom lo m = true) (h : lo ≤ a) :
    cellsFrom lo (cellSet m a b) = true := by
  induction m generalizing lo with
  | nil =>
    by_cases z : b = 0
    · simp [cellSet, z, cellsFrom]
    · simp only [cellSet, if_neg z, cellsFrom, Bool.and_eq_true, decide_eq_true_eq, bne_iff_ne]
      exact ⟨⟨h, z⟩, trivial⟩
  | cons c r ih =>
    obtain ⟨x, y⟩ := c
    simp only [cellsFrom, Bool.and_eq_true, decide_eq_true_eq] at k
    obtain ⟨⟨k1, k2⟩, k3⟩ := k
    simp only [cellSet]
    split
    · split
      · simp only [cellsFrom, Bool.and_eq_true, decide_eq_true_eq]
        exact ⟨⟨k1, k2⟩, k3⟩
      · rename_i l z
        simp only [cellsFrom, Bool.and_eq_true, decide_eq_true_eq]
        exact ⟨⟨h, by simpa using z⟩, ⟨by omega, k2⟩, k3⟩
    · split
      · split
        · exact cellsFrom_mono (by omega) k3
        · rename_i l e z
          simp only [cellsFrom, Bool.and_eq_true, decide_eq_true_eq]
          exact ⟨⟨h, by simpa using z⟩, by rw [e]; exact k3⟩
      · simp only [cellsFrom, Bool.and_eq_true, decide_eq_true_eq]
        exact ⟨⟨k1, k2⟩, ih k3 (by omega)⟩

theorem cellSet_wf {m : List Host.Cell} (a : Nat) (b : Byte) (k : cellsWf m = true) : cellsWf (cellSet m a b) = true :=
  cellSet_from b k (Nat.zero_le _)

theorem cellsWrite_wf {m : List Host.Cell} (a : Nat) (bs : List Byte) (k : cellsWf m = true) : cellsWf (cellsWrite m a bs) = true := by
  induction bs generalizing m a with
  | nil => exact k
  | cons b r ih => exact ih (a + 1) (cellSet_wf a b k)

theorem filter_from {m : List Host.Cell} {lo : Nat} (f : Host.Cell → Bool) (k : cellsFrom lo m = true) :
    cellsFrom lo (m.filter f) = true := by
  induction m generalizing lo with
  | nil => rfl
  | cons c r ih =>
    obtain ⟨a, b⟩ := c
    simp only [cellsFrom, Bool.and_eq_true, decide_eq_true_eq] at k
    simp only [List.filter_cons]
    split
    · simp only [cellsFrom, Bool.and_eq_true, decide_eq_true_eq]
      exact ⟨k.1, ih k.2⟩
    · exact cellsFrom_mono (by omega) (ih k.2)

theorem filter_wf {m : List Host.Cell} (f : Host.Cell → Bool) (k : cellsWf m = true) : cellsWf (m.filter f) = true :=
  filter_from f k

theorem cellsClear_wf {m : List Host.Cell} (a n : Nat) (k : cellsWf m = true) : cellsWf (cellsClear m a n) = true :=
  filter_from _ k

/-! ## Reads after writes -/

theorem cellGet_set_from {m : List Host.Cell} {lo : Nat} (k : cellsFrom lo m = true) (a x : Nat) (b : Byte) (h : lo ≤ a) :
    cellGet (cellSet m a b) x = if x = a then b else cellGet m x := by
  induction m generalizing lo with
  | nil =>
    by_cases z : b = 0
    · subst z
      simp [cellSet, cellGet]
    · by_cases e : a = x
      · simp only [cellSet, if_neg z, cellGet, e, if_true]
      · simp only [cellSet, if_neg z, cellGet, e, Ne.symm e, if_false]
  | cons c r ih =>
    obtain ⟨y, d⟩ := c
    simp only [cellsFrom, Bool.and_eq_true, decide_eq_true_eq] at k
    obtain ⟨⟨k1, k2⟩, k3⟩ := k
    simp only [cellSet]
    split
    · rename_i l
      split
      · rename_i z
        by_cases e : x = a
        · subst e
          have : y ≠ x := by omega
          simp only [cellGet, if_neg this, if_true, z]
          exact cellGet_below k3 (by omega)
        · simp [e]
      · by_cases e : x = a
        · simp [cellGet, e]
        · simp [cellGet, e, Ne.symm e]
    · split
      · rename_i l e
        split
        · rename_i z
          by_cases g : x = a
          · rw [if_pos g, z]
            exact cellGet_below k3 (by omega)
          · have : y ≠ x := by omega
            simp [cellGet, g, this]
        · by_cases g : x = a
          · simp [cellGet, g]
          · have : y ≠ x := by omega
            simp [cellGet, g, Ne.symm g, this]
      · rename_i l e
        by_cases g : y = x
        · have : x ≠ a := by omega
          simp [cellGet, g, this]
        · simp only [cellGet, g, if_false]
          exact ih k3 (by omega)

theorem cellGet_cellSet {m : List Host.Cell} (k : cellsWf m = true) (a x : Nat) (b : Byte) :
    cellGet (cellSet m a b) x = if x = a then b else cellGet m x :=
  cellGet_set_from k a x b (Nat.zero_le _)

theorem cellGet_cellsWrite {m : List Host.Cell} (k : cellsWf m = true) (a x : Nat) (bs : List Byte) :
    cellGet (cellsWrite m a bs) x = if a ≤ x then (bs[x - a]?).getD (cellGet m x) else cellGet m x := by
  induction bs generalizing m a with
  | nil => simp [cellsWrite]
  | cons b r ih =>
    rw [cellsWrite, ih (cellSet_wf a b k), cellGet_cellSet k]
    by_cases e : x = a
    · subst e
      have : ¬x + 1 ≤ x := by omega
      simp [this]
    · by_cases g : a ≤ x
      · have g1 : a + 1 ≤ x := by omega
        have g2 : x - a = (x - (a + 1)) + 1 := by omega
        simp [e, g, g1, g2]
      · have g1 : ¬a + 1 ≤ x := by omega
        simp [e, g, g1]

theorem cellGet_filter {m : List Host.Cell} (k : cellsWf m = true) (f : Nat → Bool) (x : Nat) :
    cellGet (m.filter fun c => f c.1) x = if f x then cellGet m x else 0 := by
  have gen : ∀ lo, cellsFrom lo m = true → cellGet (m.filter fun c => f c.1) x = if f x then cellGet m x else 0 := by
    induction m with
    | nil => intro lo _; simp [cellGet]
    | cons c r ih =>
      intro lo h
      obtain ⟨y, d⟩ := c
      simp only [cellsFrom, Bool.and_eq_true, decide_eq_true_eq] at h
      have ih := ih (cellsFrom_mono (Nat.zero_le _) h.2) _ h.2
      simp only [List.filter_cons]
      by_cases g : y = x
      · subst g
        by_cases p : f y
        · simp [p, cellGet]
        · simp only [p, if_false, Bool.false_eq_true] at ih ⊢
          exact ih
      · by_cases p : f y
        · simp only [p, if_true, cellGet, g, if_false]
          exact ih
        · simp only [p, if_false, Bool.false_eq_true, cellGet, g]
          exact ih
  exact gen 0 k

/-- Equal contents are equal lists. -/
theorem cells_ext {m n : List Host.Cell} (h : cellsWf m = true) (k : cellsWf n = true) (e : ∀ a, cellGet m a = cellGet n a) : m = n := by
  have gen : ∀ (m n : List Host.Cell) lo, cellsFrom lo m = true → cellsFrom lo n = true → (∀ a, cellGet m a = cellGet n a) → m = n := by
    intro m
    induction m with
    | nil =>
      intro n lo _ k e
      cases n with
      | nil => rfl
      | cons c r =>
        obtain ⟨a, b⟩ := c
        simp only [cellsFrom, Bool.and_eq_true, decide_eq_true_eq, bne_iff_ne] at k
        have := e a
        simp only [cellGet, if_true] at this
        exact absurd this.symm k.1.2
    | cons c r ih =>
      intro n lo h k e
      obtain ⟨a, b⟩ := c
      simp only [cellsFrom, Bool.and_eq_true, decide_eq_true_eq, bne_iff_ne] at h
      cases n with
      | nil =>
        have := e a
        simp only [cellGet, if_true] at this
        exact absurd this h.1.2
      | cons d s =>
        obtain ⟨x, y⟩ := d
        simp only [cellsFrom, Bool.and_eq_true, decide_eq_true_eq, bne_iff_ne] at k
        have ax : a = x := by
          rcases Nat.lt_trichotomy a x with g | g | g
          · have := e a
            have q : x ≠ a := by omega
            simp only [cellGet, if_true, q, if_false] at this
            rw [cellGet_below k.2 (by omega)] at this
            exact absurd this h.1.2
          · exact g
          · have := e x
            have q : a ≠ x := by omega
            simp only [cellGet, if_true, q, if_false] at this
            rw [cellGet_below h.2 (by omega)] at this
            exact absurd this.symm k.1.2
        subst ax
        have by_ : b = y := by simpa [cellGet] using e a
        subst by_
        rw [ih s (a + 1) h.2 k.2]
        intro z
        by_cases g : a = z
        · subst g
          rw [cellGet_below h.2 (Nat.lt_succ_self _), cellGet_below k.2 (Nat.lt_succ_self _)]
        · simpa [cellGet, g] using e z
  exact gen m n 0 h k e

/-! ## Physical memory under keys (R295) -/

/-- A byte as a reader with a key sees it. -/
def State.seen (s : State) (key a : Nat) : Byte :=
  if s.keyOf (a / 64) = key then cellGet s.mem a
  else byteAt (otherKey (a / 64) (s.keyOf (a / 64)) key (cellsRead s.mem (64 * (a / 64)) 64)) (a % 64)

theorem readMem_eq (s : State) (key pa n : Nat) : s.readMem key pa n = (List.range n).map fun i => s.seen key (pa + i) := rfl

theorem cellsRead_congr {m k : List Host.Cell} : ∀ (n a : Nat), (∀ i < n, cellGet m (a + i) = cellGet k (a + i)) → cellsRead m a n = cellsRead k a n
  | 0, _, _ => rfl
  | n + 1, a, h => by
    have e := cellsRead_congr (m := m) (k := k) n (a + 1) fun i g => by have := h (i + 1) (by omega); rwa [show a + 1 + i = a + (i + 1) by omega]
    simp only [cellsRead, e, show cellGet m a = cellGet k a from h 0 (Nat.succ_pos n)]

/-- A byte is seen as before where its unit holds the same bytes under the same key. -/
theorem seen_congr {s t : State} (r a : Nat) (k : t.keyOf (a / 64) = s.keyOf (a / 64))
    (m : ∀ x, x / 64 = a / 64 → cellGet t.mem x = cellGet s.mem x) : t.seen r a = s.seen r a := by
  unfold State.seen
  rw [k, m a rfl, cellsRead_congr 64 (64 * (a / 64)) fun i h => m _ (by omega)]

theorem readMem_length (s : State) (key pa n : Nat) : (s.readMem key pa n).length = n := by simp [readMem_eq]

theorem readMem_get (s : State) (key pa n i : Nat) (h : i < n) : (s.readMem key pa n)[i]? = some (s.seen key (pa + i)) := by
  rw [readMem_eq]
  simp [h]

theorem find_filter_ne (l : List (Nat × Nat)) (x y : Nat) :
    (l.filter fun p => p.1 != x).find? (fun p => p.1 = y) = if y = x then none else l.find? fun p => p.1 = y := by
  induction l with
  | nil => simp
  | cons c r ih =>
    by_cases e : c.1 = x
    · subst e
      by_cases g : y = c.1
      · subst g
        simpa using ih
      · simp only [g, if_false] at ih
        simp [g, Ne.symm g, ih]
    · by_cases g : c.1 = y
      · subst g
        simp [e]
      · by_cases k : y = x
        · subst k
          simpa [e, g] using ih
        · simp only [k, if_false] at ih
          simp [e, g, k, ih]

theorem keyOf_rekey (s : State) (key line l : Nat) :
    (s.rekey key line).keyOf l = if l = line then key else s.keyOf l := by
  unfold State.rekey
  split
  · rename_i h
    by_cases e : l = line
    · subst e; simp [h]
    · simp [e]
  · unfold State.keyOf
    by_cases z : key = 0
    · simp only [z, if_true, List.nil_append]
      rw [find_filter_ne]
      by_cases e : l = line <;> simp [e]
    · simp only [z, if_false, List.singleton_append, List.find?_cons]
      by_cases e : line = l
      · simp [e]
      · simp only [e, decide_false, Ne.symm e, if_false]
        rw [find_filter_ne, if_neg (Ne.symm e)]

theorem rekey_mem (s : State) (key line : Nat) :
    (s.rekey key line).mem = if s.keyOf line = key then s.mem else cellsWrite s.mem (64 * line) (s.readMem key (64 * line) 64) := by
  unfold State.rekey
  by_cases h : s.keyOf line = key
  · rw [if_pos h, if_pos h]
  · rw [if_neg h, if_neg h]

theorem rekey_wf {s : State} (h : cellsWf s.mem = true) (key line : Nat) : cellsWf (s.rekey key line).mem = true := by
  rw [rekey_mem]
  split
  · exact h
  · exact cellsWrite_wf _ _ h

theorem rekey_get {s : State} (h : cellsWf s.mem = true) (key line a : Nat) :
    cellGet (s.rekey key line).mem a = if a / 64 = line ∧ s.keyOf line ≠ key then s.seen key a else cellGet s.mem a := by
  rw [rekey_mem]
  by_cases e : s.keyOf line = key
  · simp [e]
  · rw [if_neg e, cellGet_cellsWrite h]
    by_cases g : a / 64 = line
    · have g1 : 64 * line ≤ a := by omega
      have g2 : a - 64 * line < 64 := by omega
      rw [if_pos g1, readMem_get _ _ _ _ _ g2, if_pos ⟨g, e⟩]
      rw [show 64 * line + (a - 64 * line) = a by omega]
      rfl
    · rw [if_neg (fun k : a / 64 = line ∧ _ => g k.1)]
      by_cases g1 : 64 * line ≤ a
      · rw [if_pos g1, List.getElem?_eq_none (by rw [readMem_length]; omega)]
        rfl
      · rw [if_neg g1]

theorem rekey_other {s : State} (h : cellsWf s.mem = true) (key line r a : Nat) (g : a / 64 ≠ line) :
    (s.rekey key line).seen r a = s.seen r a :=
  seen_congr r a (by rw [keyOf_rekey, if_neg g]) fun x e => by
    rw [rekey_get h, if_neg (fun k : x / 64 = line ∧ _ => g (e ▸ k.1))]

/-- A line taken over by a key shows that key what it showed it before. -/
theorem rekey_seen {s : State} (h : cellsWf s.mem = true) (key line a : Nat) : (s.rekey key line).seen key a = s.seen key a := by
  by_cases g : a / 64 = line
  · unfold State.seen
    rw [keyOf_rekey, if_pos g, if_pos rfl, rekey_get h]
    by_cases e : s.keyOf line = key
    · simp [g, e]
    · simp [g, e, State.seen]
  · exact rekey_other h key line key a g

/-- Lines taken over one after another. -/
theorem rekeys {s : State} (h : cellsWf s.mem = true) (key : Nat) (ls : List Nat) :
    let t := ls.foldl (fun s i => s.rekey key i) s
    cellsWf t.mem = true ∧ (∀ a, t.seen key a = s.seen key a) ∧ (∀ r a, a / 64 ∉ ls → t.seen r a = s.seen r a) ∧
      (∀ l, t.keyOf l = if l ∈ ls then key else s.keyOf l) := by
  induction ls generalizing s with
  | nil => exact ⟨h, fun _ => rfl, fun _ _ _ => rfl, fun _ => by simp⟩
  | cons x r ih =>
    obtain ⟨h1, h2, h3, h4⟩ := ih (rekey_wf h key x)
    refine ⟨h1, fun a => (h2 a).trans (rekey_seen h key x a), fun q a g => ?_, fun l => ?_⟩
    · simp only [List.mem_cons, not_or] at g
      exact (h3 q a g.2).trans (rekey_other h key x q a g.1)
    · refine (h4 l).trans ?_
      rw [keyOf_rekey]
      by_cases e : l = x <;> by_cases g : l ∈ r <;> simp [e, g]

/-! ### Granules copied before a write (R347) -/

/-- A page of the reserve of a checkpoint that is being drained. -/
def State.reservePage (s : State) (p : Nat) : Bool :=
  s.ck.any fun c => c.phase = 2 && decide (c.base / 4096 ≤ p) && decide (p < c.base / 4096 + 16 * c.reserve)

theorem find_append_none {l m : List (Nat × Nat)} {x : Nat} (h : ∀ p ∈ l, p.1 ≠ x) :
    (l ++ m).find? (fun p => p.1 = x) = m.find? fun p => p.1 = x := by
  rw [List.find?_append, List.find?_eq_none.mpr (by simpa using fun a b k e => h (a, b) k e)]
  rfl

theorem find_filter_page (l : List (Nat × Nat)) (d x : Nat) (h : x / 64 ≠ d) :
    (l.filter fun p => p.1 / 64 != d).find? (fun p => p.1 = x) = l.find? fun p => p.1 = x := by
  induction l with
  | nil => rfl
  | cons c r ih =>
    by_cases g : c.1 = x
    · simp [g, h]
    · by_cases k : c.1 / 64 = d <;> simp [g, k, ih]

theorem foldl_cellSet {m : List Host.Cell} (h : cellsWf m = true) (f : Nat → Nat) (l : List Host.Cell) :
    cellsWf (l.foldl (fun m c => cellSet m (f c.1) c.2) m) = true ∧
      ∀ x, (∀ c ∈ l, f c.1 ≠ x) → cellGet (l.foldl (fun m c => cellSet m (f c.1) c.2) m) x = cellGet m x := by
  induction l generalizing m with
  | nil => exact ⟨h, fun _ _ => rfl⟩
  | cons c r ih =>
    obtain ⟨h1, h2⟩ := ih (cellSet_wf (f c.1) c.2 h)
    exact ⟨h1, fun x g => (h2 x fun d k => g d (List.mem_cons_of_mem _ k)).trans
      (by rw [cellGet_cellSet h, if_neg (Ne.symm (g c List.mem_cons_self))])⟩

theorem copyPage_mem (s : State) (src dst : Nat) :
    (s.copyPage src dst).mem = (s.mem.filter fun x => x.1 / 4096 = src).foldl
      (fun m x => cellSet m ((fun y => 4096 * dst + y % 4096) x.1) x.2) (cellsClear s.mem (4096 * dst) 4096) := rfl

/-- A page copied: the canonical form is kept, and every other page is as it was. -/
theorem copyPage_spec {s : State} (h : cellsWf s.mem = true) (src dst : Nat) :
    cellsWf (s.copyPage src dst).mem = true ∧ (∀ r a, a / 4096 ≠ dst → (s.copyPage src dst).seen r a = s.seen r a) := by
  have hc : cellsWf (cellsClear s.mem (4096 * dst) 4096) = true := cellsClear_wf _ _ h
  obtain ⟨h1, h2⟩ := foldl_cellSet hc (fun x => 4096 * dst + x % 4096) (s.mem.filter fun x => x.1 / 4096 = src)
  refine ⟨h1, fun r a g => seen_congr r a ?_ fun x e => ?_⟩
  · unfold State.keyOf State.copyPage
    rw [find_append_none, find_filter_page _ _ _ (by omega)]
    intro p k
    simp only [List.mem_map] at k
    obtain ⟨y, -, rfl⟩ := k
    show 64 * dst + y.1 % 64 ≠ a / 64
    omega
  · rw [copyPage_mem, h2 x fun c _ => by show 4096 * dst + c.1 % 4096 ≠ x; omega]
    unfold cellsClear
    rw [cellGet_filter h fun y => !(decide (4096 * dst ≤ y) && decide (y < 4096 * dst + 4096)), if_pos]
    simp
    omega

theorem copyPages_spec (ps : List (Nat × Nat)) (d : Nat) {s : State} (h : cellsWf s.mem = true) :
    let t := ps.foldl (fun s x => s.copyPage x.1 (d + x.2)) s
    cellsWf t.mem = true ∧ (∀ r a, (∀ x ∈ ps, a / 4096 ≠ d + x.2) → t.seen r a = s.seen r a) := by
  induction ps generalizing s with
  | nil => exact ⟨h, fun _ _ _ => rfl⟩
  | cons x r ih =>
    obtain ⟨h1, h2⟩ := copyPage_spec h x.1 (d + x.2)
    obtain ⟨h3, h4⟩ := ih h1
    exact ⟨h3, fun q a g => (h4 q a fun y k => g y (List.mem_cons_of_mem _ k)).trans (h2 q a (g x List.mem_cons_self))⟩

theorem copyPages_frame (ps : List (Nat × Nat)) (d : Nat) (s : State) :
    ∃ m k p, ps.foldl (fun s x => s.copyPage x.1 (d + x.2)) s = { s with mem := m, lineKey := k, poison := p } := by
  induction ps generalizing s with
  | nil => exact ⟨_, _, _, rfl⟩
  | cons x r ih =>
    obtain ⟨m, k, p, e⟩ := ih (s.copyPage x.1 (d + x.2))
    exact ⟨m, k, p, by rw [List.foldl_cons, e]; rfl⟩

/-- What the copy of a granule does: it keeps the canonical form, the rest of the machine, and every byte outside the reserve; the
reserve stays where it was. -/
theorem copyGranule_spec {s : State} (h : cellsWf s.mem = true) (pa : Nat) :
    cellsWf (s.copyGranule pa).mem = true ∧ (∃ m k c p, s.copyGranule pa = { s with mem := m, lineKey := k, ck := c, poison := p }) ∧
      (∀ p, (s.copyGranule pa).reservePage p = s.reservePage p) ∧
      (∀ r a, s.reservePage (a / 4096) = false → (s.copyGranule pa).seen r a = s.seen r a) := by
  unfold State.copyGranule
  split
  case h_2 => exact ⟨h, ⟨_, _, _, _, rfl⟩, fun _ => rfl, fun _ _ _ => rfl⟩
  case h_1 g c hf hk =>
    split
    case h_1 => exact ⟨h, ⟨_, _, _, _, rfl⟩, fun _ => rfl, fun _ _ _ => rfl⟩
    case h_2 n hn =>
      have hx : ∀ x ∈ g.pages.zip (List.range 16), x.2 < 16 := fun x k => List.mem_range.mp (List.of_mem_zip k).2
      have hr : n < c.reserve := List.mem_range.mp (List.mem_of_find?_eq_some hn)
      have hp : c.phase = 2 := by
        have := hf
        simp only [State.frozen, hk] at this
        have := List.find?_some this
        simp only [Bool.and_eq_true, decide_eq_true_eq] at this
        exact this.2
      obtain ⟨h1, h2⟩ := copyPages_spec (g.pages.zip (List.range 16)) (c.base / 4096 + 16 * n) h
      obtain ⟨m, k, q, e⟩ := copyPages_frame (g.pages.zip (List.range 16)) (c.base / 4096 + 16 * n) s
      refine ⟨h1, ⟨m, k, _, q, by simp only [e]; rfl⟩, fun p => ?_, fun r a z => ?_⟩
      · simp only [State.reservePage, hk, Option.any_some]
      refine (seen_congr r a rfl fun _ _ => rfl).trans (h2 r a fun x k => ?_)
      have := hx x k
      simp only [State.reservePage, hk, Option.any_some, hp, decide_true, Bool.true_and, Bool.and_eq_false_iff, decide_eq_false_iff_not] at z
      omega

/-- The same of every granule that holds a page. -/
theorem copyPageGranules_spec {s : State} (h : cellsWf s.mem = true) (x : Nat) :
    cellsWf (s.copyPageGranules x).mem = true ∧ (∃ m k c p, s.copyPageGranules x = { s with mem := m, lineKey := k, ck := c, poison := p }) ∧
      (∀ p, (s.copyPageGranules x).reservePage p = s.reservePage p) ∧
      (∀ r a, s.reservePage (a / 4096) = false → (s.copyPageGranules x).seen r a = s.seen r a) := by
  unfold State.copyPageGranules
  generalize s.frozenAt [x] = l
  induction l generalizing s with
  | nil => exact ⟨h, ⟨_, _, _, _, rfl⟩, fun _ => rfl, fun _ _ _ => rfl⟩
  | cons y r ih =>
    obtain ⟨h1, ⟨m, k, c, p, e⟩, h3, h4⟩ := copyGranule_spec h (4096 * x)
    obtain ⟨g1, ⟨m', k', c', p', e'⟩, g3, g4⟩ := ih h1
    refine ⟨g1, ⟨m', k', c', p', by rw [List.foldl_cons, e', e]⟩, fun p => (g3 p).trans (h3 p), fun q a z => ?_⟩
    exact (g4 q a ((h3 _).trans z)).trans (h4 q a z)

/-- The same of all granules that a write reaches. -/
theorem copyGranules_spec {s : State} (h : cellsWf s.mem = true) (pa n : Nat) :
    cellsWf (s.copyGranules pa n).mem = true ∧ (∃ m k c p, s.copyGranules pa n = { s with mem := m, lineKey := k, ck := c, poison := p }) ∧
      (∀ p, (s.copyGranules pa n).reservePage p = s.reservePage p) ∧
      (∀ r a, s.reservePage (a / 4096) = false → (s.copyGranules pa n).seen r a = s.seen r a) := by
  unfold State.copyGranules
  generalize pagesOf pa n = l
  induction l generalizing s with
  | nil => exact ⟨h, ⟨_, _, _, _, rfl⟩, fun _ => rfl, fun _ _ _ => rfl⟩
  | cons x r ih =>
    obtain ⟨h1, ⟨m, k, c, p, e⟩, h3, h4⟩ := copyPageGranules_spec h x
    obtain ⟨g1, ⟨m', k', c', p', e'⟩, g3, g4⟩ := ih h1
    refine ⟨g1, ⟨m', k', c', p', by rw [List.foldl_cons, e', e]⟩, fun p => (g3 p).trans (h3 p), fun q a z => ?_⟩
    exact (g4 q a ((h3 _).trans z)).trans (h4 q a z)

/-- The lines of an access of n > 0 bytes. -/
def linesOf (pa n : Nat) : List Nat := (List.range ((pa + n - 1) / 64 + 1 - pa / 64)).map fun i => pa / 64 + i

theorem mem_linesOf (pa n l : Nat) : l ∈ linesOf pa n ↔ pa / 64 ≤ l ∧ l ≤ (pa + n - 1) / 64 := by
  simp only [linesOf, List.mem_map, List.mem_range]
  constructor
  · rintro ⟨i, h, rfl⟩
    omega
  · intro h
    exact ⟨l - pa / 64, by omega, by omega⟩

theorem writeMem_eq (s : State) (key pa : Nat) (bs : List Byte) (h : bs ≠ []) :
    s.writeMem key pa bs =
      let t := (linesOf pa bs.length).foldl (fun s i => s.rekey key i) (s.copyGranules pa bs.length)
      { t with mem := cellsWrite t.mem pa bs } := by
  have e : bs.isEmpty = false := by simpa using h
  simp only [State.writeMem, e, linesOf, List.foldl_map]
  rfl

/-- What `writeMem` does: it keeps the canonical form, and outside the reserve of a checkpoint the writer's key reads the bytes written and
everything else as before, and every other line reads as before under every key. The bytes written are read back there too. -/
theorem writeMem_spec {s : State} (h : cellsWf s.mem = true) (key pa : Nat) (bs : List Byte) :
    let t := s.writeMem key pa bs
    cellsWf t.mem = true ∧
    (∀ a, pa ≤ a → ∀ b, bs[a - pa]? = some b → t.seen key a = b) ∧
    (∀ a, s.reservePage (a / 4096) = false → t.seen key a = if pa ≤ a then (bs[a - pa]?).getD (s.seen key a) else s.seen key a) ∧
    (∀ r a, s.reservePage (a / 4096) = false → (bs = [] ∨ a / 64 < pa / 64 ∨ (pa + bs.length - 1) / 64 < a / 64) → t.seen r a = s.seen r a) := by
  by_cases z : bs = []
  · subst z
    refine ⟨h, fun a _ b k => by simp at k, fun a _ => by simp [State.writeMem], fun r a _ _ => rfl⟩
  · obtain ⟨hc, -, -, hs⟩ := copyGranules_spec h pa bs.length
    obtain ⟨h1, h2, h3, h4⟩ := rekeys hc key (linesOf pa bs.length)
    have pos : 0 < bs.length := List.length_pos_iff.mpr z
    intro t
    have et : t = _ := writeMem_eq s key pa bs z
    rw [et]
    generalize (linesOf pa bs.length).foldl (fun s i => s.rekey key i) (s.copyGranules pa bs.length) = u at h1 h2 h3 h4
    have inside : ∀ a, pa ≤ a → ∀ b, bs[a - pa]? = some b → State.seen { u with mem := cellsWrite u.mem pa bs } key a = b := by
      intro a g b k
      have i : a - pa < bs.length := (List.getElem?_eq_some_iff.mp k).1
      have q : u.keyOf (a / 64) = key := by rw [h4, if_pos ((mem_linesOf _ _ _).mpr (by omega))]
      refine (if_pos q).trans ?_
      show cellGet (cellsWrite u.mem pa bs) a = b
      rw [cellGet_cellsWrite h1, if_pos g, k]
      rfl
    have outside : ∀ x, ¬(pa ≤ x ∧ x < pa + bs.length) → cellGet (cellsWrite u.mem pa bs) x = cellGet u.mem x := by
      intro x g
      rw [cellGet_cellsWrite h1]
      split
      · rw [List.getElem?_eq_none (by omega)]
        rfl
      · rfl
    have away : ∀ r a, a / 64 ∉ linesOf pa bs.length → State.seen { u with mem := cellsWrite u.mem pa bs } r a = u.seen r a := by
      intro r a g
      rw [mem_linesOf] at g
      exact seen_congr r a rfl fun x e => outside x (by omega)
    refine ⟨cellsWrite_wf _ _ h1, inside, fun a k => ?_, fun r a k g => ?_⟩
    · by_cases g : pa ≤ a ∧ a < pa + bs.length
      · have i : a - pa < bs.length := by omega
        rw [inside a g.1 bs[a - pa] (List.getElem?_eq_getElem i), if_pos g.1, List.getElem?_eq_getElem i]
        rfl
      · have e : ∀ d : Byte, (if pa ≤ a then (bs[a - pa]?).getD d else d) = d := by
          intro d
          split
          · rw [List.getElem?_eq_none (by omega)]
            rfl
          · rfl
        rw [e, ← hs key a k, ← h2 a]
        by_cases l : a / 64 ∈ linesOf pa bs.length
        · have q : u.keyOf (a / 64) = key := by rw [h4, if_pos l]
          exact (if_pos q).trans ((outside a g).trans (if_pos q).symm)
        · exact away key a l
    · have l : a / 64 ∉ linesOf pa bs.length := by
        rw [mem_linesOf]
        rcases g with g | g | g
        · exact absurd g z
        · omega
        · omega
      rw [away r a l, h3 r a l, hs r a k]

theorem writeMem_wf {s : State} (h : cellsWf s.mem = true) (key pa : Nat) (bs : List Byte) :
    cellsWf (s.writeMem key pa bs).mem = true := (writeMem_spec h key pa bs).1

theorem readMem_writeMem {s : State} (h : cellsWf s.mem = true) (key pa : Nat) (bs : List Byte) :
    (s.writeMem key pa bs).readMem key pa bs.length = bs := by
  apply List.ext_getElem?
  intro i
  by_cases g : i < bs.length
  · rw [readMem_get _ _ _ _ _ g, List.getElem?_eq_getElem g]
    exact congrArg some ((writeMem_spec h key pa bs).2.1 (pa + i) (Nat.le_add_right _ _) _ (by simp [g]))
  · rw [List.getElem?_eq_none (by rw [readMem_length]; omega), List.getElem?_eq_none (by omega)]

theorem rekeys_frame (key : Nat) (ls : List Nat) (s : State) :
    ∃ m k, ls.foldl (fun s i => s.rekey key i) s = { s with mem := m, lineKey := k } := by
  induction ls generalizing s with
  | nil => exact ⟨s.mem, s.lineKey, rfl⟩
  | cons x r ih =>
    obtain ⟨m, k, e⟩ := ih (s.rekey key x)
    refine ⟨m, k, ?_⟩
    rw [List.foldl_cons, e]
    unfold State.rekey
    split <;> rfl

theorem copyGranule_frame (s : State) (pa : Nat) :
    ∃ m k c p, s.copyGranule pa = { s with mem := m, lineKey := k, ck := c, poison := p } := by
  unfold State.copyGranule
  split
  · split
    · exact ⟨_, _, _, _, rfl⟩
    · rename_i g c _ _ _ n _
      obtain ⟨m, k, p, e⟩ := copyPages_frame (g.pages.zip (List.range 16)) (c.base / 4096 + 16 * n) s
      exact ⟨m, k, _, p, by simp only [e]; rfl⟩
  · exact ⟨_, _, _, _, rfl⟩

theorem copyPageGranules_frame (s : State) (x : Nat) :
    ∃ m k c p, s.copyPageGranules x = { s with mem := m, lineKey := k, ck := c, poison := p } := by
  unfold State.copyPageGranules
  generalize s.frozenAt [x] = l
  induction l generalizing s with
  | nil => exact ⟨_, _, _, _, rfl⟩
  | cons y r ih =>
    obtain ⟨m, k, c, p, e⟩ := copyGranule_frame s (4096 * x)
    obtain ⟨m', k', c', p', e'⟩ := ih (s.copyGranule (4096 * x))
    exact ⟨m', k', c', p', by rw [List.foldl_cons, e', e]⟩

theorem copyGranules_frame (s : State) (pa n : Nat) :
    ∃ m k c p, s.copyGranules pa n = { s with mem := m, lineKey := k, ck := c, poison := p } := by
  unfold State.copyGranules
  generalize pagesOf pa n = l
  induction l generalizing s with
  | nil => exact ⟨_, _, _, _, rfl⟩
  | cons x r ih =>
    obtain ⟨m, k, c, p, e⟩ := copyPageGranules_frame s x
    obtain ⟨m', k', c', p', e'⟩ := ih (s.copyPageGranules x)
    exact ⟨m', k', c', p', by rw [List.foldl_cons, e', e]⟩

/-- The rest of the machine is as it was; poison changes with the copies of a checkpoint's granules alone. -/
theorem writeMem_frame (s : State) (key pa : Nat) (bs : List Byte) :
    ∃ m k c p, s.writeMem key pa bs = { s with mem := m, lineKey := k, ck := c, poison := p } := by
  by_cases z : bs = []
  · subst z
    exact ⟨s.mem, s.lineKey, s.ck, s.poison, rfl⟩
  · rw [writeMem_eq s key pa bs z]
    obtain ⟨m, k, c, p, e⟩ := copyGranules_frame s pa bs.length
    obtain ⟨m', k', e'⟩ := rekeys_frame key (linesOf pa bs.length) (s.copyGranules pa bs.length)
    exact ⟨cellsWrite m' pa bs, k', c, p, by rw [e', e]⟩

/-! ## What stays where memory changes at given places -/

/-- Bytes that a change of memory does not touch are read as before. -/
theorem only_at_rdN {s t : State} {P : List (Place × Nat)} (h : OnlyAt s t P) (a n : Nat) (r : ∀ i < n, s.inReserve (.mem (a + i) 0) = false)
    (p : ∀ x ∈ P, ∀ i < n, x.1.touches x.2 (.mem (a + i) 0) = false) : t.rdN a n = s.rdN a n := by
  have e : t.readMem 0 a n = s.readMem 0 a n := by
    simp only [readMem_eq]
    refine List.map_congr_left fun i hi => ?_
    have k := h.bytes (.mem (a + i) 0) (r i (by simpa using hi)) fun x hx => p x hx i (by simpa using hi)
    simpa [State.readPlace, readMem_eq] using k
  simp only [State.rdN, e]

theorem only_at_tlb {s t : State} {P : List (Place × Nat)} (h : OnlyAt s t P) : t.tlb = s.tlb := by rw [h.rest]
theorem only_at_ctx {s t : State} {P : List (Place × Nat)} (h : OnlyAt s t P) : t.ctx = s.ctx := by rw [h.rest]

end Sys2Proof.Machine
end

