-- ==== Sys2Proof/Laws/PerInstr.lean ====
section
/-!
SUPPORT. What holds of every instruction as syntax, one lemma for each constructor.
-/
namespace Sys2Proof.Laws.Header
open Sys2Proof

/-- The chain bit and the stall count of a word are read back from it, whatever the instruction (R43). -/
def Statement (i : Instr) : Prop := ∀ h : Header, headerOf (encodeWord h i) = h

theorem header_bits (c : Bool) (t : BitVec 3) (b : BitVec 28) (j : Nat) :
    (BitVec.ofBool c ++ t ++ b : BitVec 32).getLsbD (28 + j) = if j < 3 then t.getLsbD j else (BitVec.ofBool c).getLsbD (j - 3) := by
  have h := BitVec.getLsbD_append (x := BitVec.ofBool c ++ t) (y := b) (i := 28 + j)
  have k := BitVec.getLsbD_append (x := BitVec.ofBool c) (y := t) (i := j)
  exact h.trans (by simp [k])

theorem header_of_body (i : Instr) : Statement i := by
  intro ⟨c, t⟩
  have hc : fld (encodeWord ⟨c, t⟩ i) 31 1 = BitVec.ofBool c := by
    apply BitVec.eq_of_getLsbD_eq; intro j hj
    have : j = 0 := by omega
    subst this
    have := header_bits c t (encodeBody i) 3
    simpa [encodeWord, fld] using this
  have ht : fld (encodeWord ⟨c, t⟩ i) 28 3 = t := by
    apply BitVec.eq_of_getLsbD_eq; intro j hj
    have := header_bits c t (encodeBody i) j
    simpa [encodeWord, fld, hj] using this
  unfold headerOf; rw [hc, ht]; cases c <;> rfl

theorem pfx (m : BitVec 3) (z : BitVec 1) (r : BitVec 3) (v : BitVec 6) (u : BitVec 3) (q : BitVec 3) : Statement (.pfx m z r v u q) := header_of_body _
theorem sadd (d : BitVec 7) (a : BitVec 7) (x : BitVec 1) : Statement (.sadd d a x) := header_of_body _
theorem ssub (d : BitVec 7) (a : BitVec 7) (x : BitVec 1) : Statement (.ssub d a x) := header_of_body _
theorem smul (d : BitVec 7) (a : BitVec 7) (x : BitVec 1) : Statement (.smul d a x) := header_of_body _
theorem smulhI32 (d : BitVec 7) (a : BitVec 7) : Statement (.smulhI32 d a) := header_of_body _
theorem smulhN32 (d : BitVec 7) (a : BitVec 7) : Statement (.smulhN32 d a) := header_of_body _
theorem sdivI32 (d : BitVec 7) (a : BitVec 7) : Statement (.sdivI32 d a) := header_of_body _
theorem sdivN32 (d : BitVec 7) (a : BitVec 7) : Statement (.sdivN32 d a) := header_of_body _
theorem sremI32 (d : BitVec 7) (a : BitVec 7) : Statement (.sremI32 d a) := header_of_body _
theorem sremN32 (d : BitVec 7) (a : BitVec 7) : Statement (.sremN32 d a) := header_of_body _
theorem sminI (d : BitVec 7) (a : BitVec 7) (x : BitVec 1) : Statement (.sminI d a x) := header_of_body _
theorem sminN (d : BitVec 7) (a : BitVec 7) (x : BitVec 1) : Statement (.sminN d a x) := header_of_body _
theorem smaxI (d : BitVec 7) (a : BitVec 7) (x : BitVec 1) : Statement (.smaxI d a x) := header_of_body _
theorem smaxN (d : BitVec 7) (a : BitVec 7) (x : BitVec 1) : Statement (.smaxN d a x) := header_of_body _
theorem sand (d : BitVec 7) (a : BitVec 7) (x : BitVec 1) : Statement (.sand d a x) := header_of_body _
theorem sor (d : BitVec 7) (a : BitVec 7) (x : BitVec 1) : Statement (.sor d a x) := header_of_body _
theorem sxor (d : BitVec 7) (a : BitVec 7) (x : BitVec 1) : Statement (.sxor d a x) := header_of_body _
theorem sandn (d : BitVec 7) (a : BitVec 7) (x : BitVec 1) : Statement (.sandn d a x) := header_of_body _
theorem sshl (d : BitVec 7) (a : BitVec 7) (x : BitVec 1) : Statement (.sshl d a x) := header_of_body _
theorem sshr (d : BitVec 7) (a : BitVec 7) (x : BitVec 1) : Statement (.sshr d a x) := header_of_body _
theorem ssar (d : BitVec 7) (a : BitVec 7) (x : BitVec 1) : Statement (.ssar d a x) := header_of_body _
theorem sbfe (d : BitVec 7) (a : BitVec 7) (x : BitVec 1) : Statement (.sbfe d a x) := header_of_body _
theorem sbfi (d : BitVec 7) (a : BitVec 7) : Statement (.sbfi d a) := header_of_body _
theorem sclz (d : BitVec 7) (a : BitVec 7) (x : BitVec 1) : Statement (.sclz d a x) := header_of_body _
theorem spopc (d : BitVec 7) (a : BitVec 7) (x : BitVec 1) : Statement (.spopc d a x) := header_of_body _
theorem smov (d : BitVec 7) (a : BitVec 7) (x : BitVec 1) : Statement (.smov d a x) := header_of_body _
theorem ssel (d : BitVec 7) (a : BitVec 7) (x : BitVec 1) (p : BitVec 3) : Statement (.ssel d a x p) := header_of_body _
theorem saddi (d : BitVec 7) (i : BitVec 15) : Statement (.saddi d i) := header_of_body _
theorem smovi (d : BitVec 7) (i : BitVec 15) : Statement (.smovi d i) := header_of_body _
theorem smovh (d : BitVec 7) (i : BitVec 15) : Statement (.smovh d i) := header_of_body _
theorem scmp (p : BitVec 3) (c : BitVec 4) (a : BitVec 7) (b : BitVec 7) (x : BitVec 1) : Statement (.scmp p c a b x) := header_of_body _
theorem scmpi (p : BitVec 3) (c : BitVec 4) (a : BitVec 7) (i : BitVec 7) (x : BitVec 1) : Statement (.scmpi p c a i x) := header_of_body _
theorem srd (d : BitVec 7) (r : BitVec 7) : Statement (.srd d r) := header_of_body _
theorem srdD (d : BitVec 7) (r : BitVec 7) : Statement (.srdD d r) := header_of_body _
theorem srdV (v : BitVec 7) : Statement (.srdV v) := header_of_body _
theorem swr (r : BitVec 7) (a : BitVec 7) : Statement (.swr r a) := header_of_body _
theorem swrD (r : BitVec 7) (a : BitVec 7) : Statement (.swrD r a) := header_of_body _
theorem plog (p : BitVec 3) (b : BitVec 3) (a : BitVec 3) (u : BitVec 4) : Statement (.plog p b a u) := header_of_body _
theorem plogM (p : BitVec 3) (b : BitVec 3) (a : BitVec 3) (u : BitVec 4) : Statement (.plogM p b a u) := header_of_body _
theorem bra (p : BitVec 3) (i : BitVec 16) : Statement (.bra p i) := header_of_body _
theorem braNot (p : BitVec 3) (i : BitVec 16) : Statement (.braNot p i) := header_of_body _
theorem brcAny (m : BitVec 3) (i : BitVec 16) : Statement (.brcAny m i) := header_of_body _
theorem brcAll (m : BitVec 3) (i : BitVec 16) : Statement (.brcAll m i) := header_of_body _
theorem brcNone (m : BitVec 3) (i : BitVec 16) : Statement (.brcNone m i) := header_of_body _
theorem vbra (m : BitVec 3) (i : BitVec 16) : Statement (.vbra m i) := header_of_body _
theorem vbraNot (m : BitVec 3) (i : BitVec 16) : Statement (.vbraNot m i) := header_of_body _
theorem call (s : BitVec 3) (i : BitVec 16) : Statement (.call s i) := header_of_body _
theorem calli (n : BitVec 6) (s : BitVec 3) : Statement (.calli n s) := header_of_body _
theorem leave (n : BitVec 4) : Statement (.leave n) := header_of_body _
theorem arrive (n : BitVec 4) : Statement (.arrive n) := header_of_body _
theorem await (p : BitVec 3) (n : BitVec 4) : Statement (.await p n) := header_of_body _
theorem bsync (p : BitVec 3) (n : BitVec 4) : Statement (.bsync p n) := header_of_body _
theorem bmemb (q : BitVec 1) (a : BitVec 7) (n : BitVec 4) : Statement (.bmemb q a n) := header_of_body _
theorem cbarrive (n : BitVec 2) : Statement (.cbarrive n) := header_of_body _
theorem cbawait (p : BitVec 3) (n : BitVec 2) : Statement (.cbawait p n) := header_of_body _
theorem waitc (c : BitVec 2) (n : BitVec 6) : Statement (.waitc c n) := header_of_body _
theorem sigck (i : BitVec 16) : Statement (.sigck i) := header_of_body _
theorem jtake (g : BitVec 7) (q : BitVec 1) : Statement (.jtake g q) := header_of_body _
theorem jspawn (g : BitVec 7) : Statement (.jspawn g) := header_of_body _
theorem jpop (g : BitVec 7) (p : BitVec 3) : Statement (.jpop g p) := header_of_body _
theorem jsteal (g : BitVec 7) : Statement (.jsteal g) := header_of_body _
theorem lrefill (v : BitVec 6) (m : BitVec 3) : Statement (.lrefill v m) := header_of_body _
theorem vadd (d : BitVec 6) (a : BitVec 6) (b : BitVec 6) : Statement (.vadd d a b) := header_of_body _
theorem vsub (d : BitVec 6) (a : BitVec 6) (b : BitVec 6) : Statement (.vsub d a b) := header_of_body _
theorem vmul (d : BitVec 6) (a : BitVec 6) (b : BitVec 6) : Statement (.vmul d a b) := header_of_body _
theorem vmulhI32 (d : BitVec 6) (a : BitVec 6) (b : BitVec 6) : Statement (.vmulhI32 d a b) := header_of_body _
theorem vmulhN32 (d : BitVec 6) (a : BitVec 6) (b : BitVec 6) : Statement (.vmulhN32 d a b) := header_of_body _
theorem vmad (d : BitVec 6) (a : BitVec 6) (b : BitVec 6) : Statement (.vmad d a b) := header_of_body _
theorem vabsdI32 (d : BitVec 6) (a : BitVec 6) (b : BitVec 6) : Statement (.vabsdI32 d a b) := header_of_body _
theorem vand (d : BitVec 6) (a : BitVec 6) (b : BitVec 6) : Statement (.vand d a b) := header_of_body _
theorem vor (d : BitVec 6) (a : BitVec 6) (b : BitVec 6) : Statement (.vor d a b) := header_of_body _
theorem vxor (d : BitVec 6) (a : BitVec 6) (b : BitVec 6) : Statement (.vxor d a b) := header_of_body _
theorem vandn (d : BitVec 6) (a : BitVec 6) (b : BitVec 6) : Statement (.vandn d a b) := header_of_body _
theorem vshl (d : BitVec 6) (a : BitVec 6) (b : BitVec 6) : Statement (.vshl d a b) := header_of_body _
theorem vshr (d : BitVec 6) (a : BitVec 6) (b : BitVec 6) : Statement (.vshr d a b) := header_of_body _
theorem vsar (d : BitVec 6) (a : BitVec 6) (b : BitVec 6) : Statement (.vsar d a b) := header_of_body _
theorem vclz (d : BitVec 6) (a : BitVec 6) : Statement (.vclz d a) := header_of_body _
theorem vpopc (d : BitVec 6) (a : BitVec 6) : Statement (.vpopc d a) := header_of_body _
theorem vaddi (d : BitVec 6) (a : BitVec 6) (i : BitVec 10) : Statement (.vaddi d a i) := header_of_body _
theorem vmovi (d : BitVec 6) (i : BitVec 15) : Statement (.vmovi d i) := header_of_body _
theorem vmovh (d : BitVec 6) (i : BitVec 15) : Statement (.vmovh d i) := header_of_body _
theorem vaddH2 (d : BitVec 6) (a : BitVec 6) (b : BitVec 6) : Statement (.vaddH2 d a b) := header_of_body _
theorem vaddsH2 (d : BitVec 6) (a : BitVec 6) (b : BitVec 6) : Statement (.vaddsH2 d a b) := header_of_body _
theorem vsubH2 (d : BitVec 6) (a : BitVec 6) (b : BitVec 6) : Statement (.vsubH2 d a b) := header_of_body _
theorem vsubsH2 (d : BitVec 6) (a : BitVec 6) (b : BitVec 6) : Statement (.vsubsH2 d a b) := header_of_body _
theorem vminH2 (d : BitVec 6) (a : BitVec 6) (b : BitVec 6) : Statement (.vminH2 d a b) := header_of_body _
theorem vmaxH2 (d : BitVec 6) (a : BitVec 6) (b : BitVec 6) : Statement (.vmaxH2 d a b) := header_of_body _
theorem vacsH2 (d : BitVec 6) (a : BitVec 6) (b : BitVec 6) : Statement (.vacsH2 d a b) := header_of_body _
theorem vaddB4 (d : BitVec 6) (a : BitVec 6) (b : BitVec 6) : Statement (.vaddB4 d a b) := header_of_body _
theorem vaddsB4 (d : BitVec 6) (a : BitVec 6) (b : BitVec 6) : Statement (.vaddsB4 d a b) := header_of_body _
theorem vminB4 (d : BitVec 6) (a : BitVec 6) (b : BitVec 6) : Statement (.vminB4 d a b) := header_of_body _
theorem vmaxB4 (d : BitVec 6) (a : BitVec 6) (b : BitVec 6) : Statement (.vmaxB4 d a b) := header_of_body _
theorem vabsdB4 (d : BitVec 6) (a : BitVec 6) (b : BitVec 6) : Statement (.vabsdB4 d a b) := header_of_body _
theorem vdot4 (d : BitVec 6) (a : BitVec 6) (b : BitVec 6) (x : BitVec 1) (y : BitVec 1) (z : BitVec 1) : Statement (.vdot4 d a b x y z) := header_of_body _
theorem vdot8 (d : BitVec 6) (a : BitVec 6) (b : BitVec 6) (x : BitVec 1) (y : BitVec 1) (z : BitVec 1) : Statement (.vdot8 d a b x y z) := header_of_body _
theorem vcmpEqI32 (m : BitVec 3) (a : BitVec 6) (b : BitVec 6) : Statement (.vcmpEqI32 m a b) := header_of_body _
theorem vcmpNeI32 (m : BitVec 3) (a : BitVec 6) (b : BitVec 6) : Statement (.vcmpNeI32 m a b) := header_of_body _
theorem vcmpLtI32 (m : BitVec 3) (a : BitVec 6) (b : BitVec 6) : Statement (.vcmpLtI32 m a b) := header_of_body _
theorem vcmpLeI32 (m : BitVec 3) (a : BitVec 6) (b : BitVec 6) : Statement (.vcmpLeI32 m a b) := header_of_body _
theorem vcmpLtN32 (m : BitVec 3) (a : BitVec 6) (b : BitVec 6) : Statement (.vcmpLtN32 m a b) := header_of_body _
theorem vcmpLeN32 (m : BitVec 3) (a : BitVec 6) (b : BitVec 6) : Statement (.vcmpLeN32 m a b) := header_of_body _
theorem vsel (d : BitVec 6) (a : BitVec 6) (b : BitVec 6) : Statement (.vsel d a b) := header_of_body _
theorem vmov (d : BitVec 6) (a : BitVec 6) : Statement (.vmov d a) := header_of_body _
theorem vbcast (d : BitVec 6) (a : BitVec 6) (n : BitVec 5) : Statement (.vbcast d a n) := header_of_body _
theorem vminI32 (d : BitVec 6) (a : BitVec 6) (b : BitVec 6) : Statement (.vminI32 d a b) := header_of_body _
theorem vminN32 (d : BitVec 6) (a : BitVec 6) (b : BitVec 6) : Statement (.vminN32 d a b) := header_of_body _
theorem vmaxI32 (d : BitVec 6) (a : BitVec 6) (b : BitVec 6) : Statement (.vmaxI32 d a b) := header_of_body _
theorem vmaxN32 (d : BitVec 6) (a : BitVec 6) (b : BitVec 6) : Statement (.vmaxN32 d a b) := header_of_body _
theorem vbfe (d : BitVec 6) (a : BitVec 6) (b : BitVec 7) : Statement (.vbfe d a b) := header_of_body _
theorem vbfi (d : BitVec 6) (a : BitVec 6) (b : BitVec 7) : Statement (.vbfi d a b) := header_of_body _
theorem vpackH2 (d : BitVec 6) (a : BitVec 6) (b : BitVec 7) : Statement (.vpackH2 d a b) := header_of_body _
theorem vpackB4 (d : BitVec 6) (a : BitVec 6) (b : BitVec 7) : Statement (.vpackB4 d a b) := header_of_body _
theorem vunpackI16 (d : BitVec 6) (a : BitVec 6) : Statement (.vunpackI16 d a) := header_of_body _
theorem vunpackN16 (d : BitVec 6) (a : BitVec 6) : Statement (.vunpackN16 d a) := header_of_body _
theorem vunpackI8 (d : BitVec 6) (a : BitVec 6) : Statement (.vunpackI8 d a) := header_of_body _
theorem vunpackN8 (d : BitVec 6) (a : BitVec 6) : Statement (.vunpackN8 d a) := header_of_body _
theorem vfaddF32 (d : BitVec 6) (a : BitVec 6) (b : BitVec 6) : Statement (.vfaddF32 d a b) := header_of_body _
theorem vfsubF32 (d : BitVec 6) (a : BitVec 6) (b : BitVec 6) : Statement (.vfsubF32 d a b) := header_of_body _
theorem vfmulF32 (d : BitVec 6) (a : BitVec 6) (b : BitVec 6) : Statement (.vfmulF32 d a b) := header_of_body _
theorem vfminF32 (d : BitVec 6) (a : BitVec 6) (b : BitVec 6) : Statement (.vfminF32 d a b) := header_of_body _
theorem vfmaxF32 (d : BitVec 6) (a : BitVec 6) (b : BitVec 6) : Statement (.vfmaxF32 d a b) := header_of_body _
theorem vfabsF32 (d : BitVec 6) (a : BitVec 6) : Statement (.vfabsF32 d a) := header_of_body _
theorem vfnegF32 (d : BitVec 6) (a : BitVec 6) : Statement (.vfnegF32 d a) := header_of_body _
theorem vfcsgnF32 (d : BitVec 6) (a : BitVec 6) (b : BitVec 6) : Statement (.vfcsgnF32 d a b) := header_of_body _
theorem vfaddH2 (d : BitVec 6) (a : BitVec 6) (b : BitVec 6) : Statement (.vfaddH2 d a b) := header_of_body _
theorem vfsubH2 (d : BitVec 6) (a : BitVec 6) (b : BitVec 6) : Statement (.vfsubH2 d a b) := header_of_body _
theorem vfmulH2 (d : BitVec 6) (a : BitVec 6) (b : BitVec 6) : Statement (.vfmulH2 d a b) := header_of_body _
theorem vfminH2 (d : BitVec 6) (a : BitVec 6) (b : BitVec 6) : Statement (.vfminH2 d a b) := header_of_body _
theorem vfmaxH2 (d : BitVec 6) (a : BitVec 6) (b : BitVec 6) : Statement (.vfmaxH2 d a b) := header_of_body _
theorem vfabsH2 (d : BitVec 6) (a : BitVec 6) : Statement (.vfabsH2 d a) := header_of_body _
theorem vfnegH2 (d : BitVec 6) (a : BitVec 6) : Statement (.vfnegH2 d a) := header_of_body _
theorem vfcsgnH2 (d : BitVec 6) (a : BitVec 6) (b : BitVec 6) : Statement (.vfcsgnH2 d a b) := header_of_body _
theorem vfaddBf2 (d : BitVec 6) (a : BitVec 6) (b : BitVec 6) : Statement (.vfaddBf2 d a b) := header_of_body _
theorem vfsubBf2 (d : BitVec 6) (a : BitVec 6) (b : BitVec 6) : Statement (.vfsubBf2 d a b) := header_of_body _
theorem vfmulBf2 (d : BitVec 6) (a : BitVec 6) (b : BitVec 6) : Statement (.vfmulBf2 d a b) := header_of_body _
theorem vfminBf2 (d : BitVec 6) (a : BitVec 6) (b : BitVec 6) : Statement (.vfminBf2 d a b) := header_of_body _
theorem vfmaxBf2 (d : BitVec 6) (a : BitVec 6) (b : BitVec 6) : Statement (.vfmaxBf2 d a b) := header_of_body _
theorem vfabsBf2 (d : BitVec 6) (a : BitVec 6) : Statement (.vfabsBf2 d a) := header_of_body _
theorem vfnegBf2 (d : BitVec 6) (a : BitVec 6) : Statement (.vfnegBf2 d a) := header_of_body _
theorem vfcsgnBf2 (d : BitVec 6) (a : BitVec 6) (b : BitVec 6) : Statement (.vfcsgnBf2 d a b) := header_of_body _
theorem vffma (d : BitVec 6) (a : BitVec 6) (b : BitVec 6) (f : BitVec 2) : Statement (.vffma d a b f) := header_of_body _
theorem vffms (d : BitVec 6) (a : BitVec 6) (b : BitVec 6) (f : BitVec 2) : Statement (.vffms d a b f) := header_of_body _
theorem vfnma (d : BitVec 6) (a : BitVec 6) (b : BitVec 6) (f : BitVec 2) : Statement (.vfnma d a b f) := header_of_body _
theorem vcvt (d : BitVec 6) (a : BitVec 6) (x : BitVec 4) (y : BitVec 4) (e : BitVec 2) : Statement (.vcvt d a x y e) := header_of_body _
theorem vfrcp (d : BitVec 6) (a : BitVec 6) : Statement (.vfrcp d a) := header_of_body _
theorem vfrsq (d : BitVec 6) (a : BitVec 6) : Statement (.vfrsq d a) := header_of_body _
theorem vfsqrt (d : BitVec 6) (a : BitVec 6) : Statement (.vfsqrt d a) := header_of_body _
theorem vfexp2 (d : BitVec 6) (a : BitVec 6) : Statement (.vfexp2 d a) := header_of_body _
theorem vflog2 (d : BitVec 6) (a : BitVec 6) : Statement (.vflog2 d a) := header_of_body _
theorem vfsin (d : BitVec 6) (a : BitVec 6) : Statement (.vfsin d a) := header_of_body _
theorem vfcos (d : BitVec 6) (a : BitVec 6) : Statement (.vfcos d a) := header_of_body _
theorem vftanh (d : BitVec 6) (a : BitVec 6) : Statement (.vftanh d a) := header_of_body _
theorem vfsigm (d : BitVec 6) (a : BitVec 6) : Statement (.vfsigm d a) := header_of_body _
theorem vfcmpF32 (m : BitVec 3) (a : BitVec 6) (b : BitVec 6) (c : BitVec 2) : Statement (.vfcmpF32 m a b c) := header_of_body _
theorem vfcmpPacked (d : BitVec 6) (a : BitVec 6) (b : BitVec 6) (f : BitVec 2) (c : BitVec 2) : Statement (.vfcmpPacked d a b f c) := header_of_body _
theorem vhad (d : BitVec 6) (a : BitVec 6) : Statement (.vhad d a) := header_of_body _
theorem vkflip (d : BitVec 6) (a : BitVec 6) (b : BitVec 7) : Statement (.vkflip d a b) := header_of_body _
theorem vamax (d : BitVec 6) (a : BitVec 6) : Statement (.vamax d a) := header_of_body _
theorem vqmx (d : BitVec 6) (a : BitVec 6) (e : BitVec 7) : Statement (.vqmx d a e) := header_of_body _
theorem vdqmx (d : BitVec 6) (a : BitVec 6) (e : BitVec 7) : Statement (.vdqmx d a e) := header_of_body _
theorem vshflIdx (d : BitVec 6) (a : BitVec 6) (b : BitVec 6) : Statement (.vshflIdx d a b) := header_of_body _
theorem vshflXor (d : BitVec 6) (a : BitVec 6) (n : BitVec 5) : Statement (.vshflXor d a n) := header_of_body _
theorem vshflUp (d : BitVec 6) (a : BitVec 6) (n : BitVec 5) : Statement (.vshflUp d a n) := header_of_body _
theorem vshflDn (d : BitVec 6) (a : BitVec 6) (n : BitVec 5) : Statement (.vshflDn d a n) := header_of_body _
theorem vshflIdxH2 (d : BitVec 6) (a : BitVec 6) (b : BitVec 6) : Statement (.vshflIdxH2 d a b) := header_of_body _
theorem vmatch (d : BitVec 6) (a : BitVec 6) : Statement (.vmatch d a) := header_of_body _
theorem vmatchNum (d : BitVec 6) (a : BitVec 6) : Statement (.vmatchNum d a) := header_of_body _
theorem vballot (d : BitVec 6) (a : BitVec 6) : Statement (.vballot d a) := header_of_body _
theorem vlaneid (d : BitVec 6) : Statement (.vlaneid d) := header_of_body _
theorem vredsumI32 (d : BitVec 6) (a : BitVec 6) : Statement (.vredsumI32 d a) := header_of_body _
theorem vredsumF32 (d : BitVec 6) (a : BitVec 6) : Statement (.vredsumF32 d a) := header_of_body _
theorem vredmaxI32 (d : BitVec 6) (a : BitVec 6) : Statement (.vredmaxI32 d a) := header_of_body _
theorem vredmaxN32 (d : BitVec 6) (a : BitVec 6) : Statement (.vredmaxN32 d a) := header_of_body _
theorem vredmaxF32 (d : BitVec 6) (a : BitVec 6) : Statement (.vredmaxF32 d a) := header_of_body _
theorem vredminI32 (d : BitVec 6) (a : BitVec 6) : Statement (.vredminI32 d a) := header_of_body _
theorem vredminN32 (d : BitVec 6) (a : BitVec 6) : Statement (.vredminN32 d a) := header_of_body _
theorem vredminF32 (d : BitVec 6) (a : BitVec 6) : Statement (.vredminF32 d a) := header_of_body _
theorem vscanI32 (d : BitVec 6) (a : BitVec 6) : Statement (.vscanI32 d a) := header_of_body _
theorem vscanF32 (d : BitVec 6) (a : BitVec 6) : Statement (.vscanF32 d a) := header_of_body _
theorem vscanExI32 (d : BitVec 6) (a : BitVec 6) : Statement (.vscanExI32 d a) := header_of_body _
theorem vscanExF32 (d : BitVec 6) (a : BitVec 6) : Statement (.vscanExF32 d a) := header_of_body _
theorem vrdl (d : BitVec 6) (a : BitVec 6) (b : BitVec 7) : Statement (.vrdl d a b) := header_of_body _
theorem vwrl (d : BitVec 6) (b : BitVec 7) : Statement (.vwrl d b) := header_of_body _
theorem vrdlD (d : BitVec 6) (a : BitVec 6) (b : BitVec 7) : Statement (.vrdlD d a b) := header_of_body _
theorem vwrlD (d : BitVec 6) (b : BitVec 7) : Statement (.vwrlD d b) := header_of_body _
theorem vld (v : BitVec 6) (p : BitVec 6) (m : BitVec 2) (z : BitVec 2) (q : BitVec 2) (i : BitVec 4) : Statement (.vld v p m z q i) := header_of_body _
theorem vst (v : BitVec 6) (p : BitVec 6) (m : BitVec 2) (z : BitVec 2) (q : BitVec 2) (i : BitVec 4) : Statement (.vst v p m z q i) := header_of_body _
theorem sld (v : BitVec 6) (p : BitVec 6) (m : BitVec 2) (z : BitVec 2) (q : BitVec 2) (i : BitVec 4) : Statement (.sld v p m z q i) := header_of_body _
theorem sst (v : BitVec 6) (p : BitVec 6) (m : BitVec 2) (z : BitVec 2) (q : BitVec 2) (i : BitVec 4) : Statement (.sst v p m z q i) := header_of_body _
theorem vgld (v : BitVec 6) (p : BitVec 6) (m : BitVec 1) (z : BitVec 2) (q : BitVec 2) (h : BitVec 2) : Statement (.vgld v p m z q h) := header_of_body _
theorem vgst (v : BitVec 6) (p : BitVec 6) (m : BitVec 1) (z : BitVec 2) (q : BitVec 2) (h : BitVec 2) : Statement (.vgst v p m z q h) := header_of_body _
theorem vatom (v : BitVec 6) (p : BitVec 6) (o : BitVec 3) (r : BitVec 2) (c : BitVec 3) (y : BitVec 2) : Statement (.vatom v p o r c y) := header_of_body _
theorem catom (v : BitVec 6) (p : BitVec 6) (o : BitVec 3) (r : BitVec 2) (n : BitVec 1) (y : BitVec 2) : Statement (.catom v p o r n y) := header_of_body _
theorem cfaddo (v : BitVec 6) (p : BitVec 6) (s : BitVec 7) : Statement (.cfaddo v p s) := header_of_body _
theorem cline (v : BitVec 6) (p : BitVec 6) (o : BitVec 3) : Statement (.cline v p o) := header_of_body _
theorem cabandon (p : BitVec 6) (s : BitVec 7) : Statement (.cabandon p s) := header_of_body _
theorem fence (o : BitVec 2) (c : BitVec 3) : Statement (.fence o c) := header_of_body _
theorem accrd (v : BitVec 6) (l : BitVec 10) (r : BitVec 5) : Statement (.accrd v l r) := header_of_body _
theorem accwr (v : BitVec 6) (l : BitVec 10) (r : BitVec 5) : Statement (.accwr v l r) := header_of_body _
theorem cpy (g : BitVec 7) (d : BitVec 1) (y : BitVec 1) (s : BitVec 2) : Statement (.cpy g d y s) := header_of_body _
theorem cpyo (g : BitVec 7) : Statement (.cpyo g) := header_of_body _
theorem cpyr (g : BitVec 7) : Statement (.cpyr g) := header_of_body _
theorem cpyp (g : BitVec 7) : Statement (.cpyp g) := header_of_body _
theorem oclaim (g : BitVec 7) : Statement (.oclaim g) := header_of_body _
theorem orel (g : BitVec 7) (u : BitVec 1) : Statement (.orel g u) := header_of_body _
theorem ohdr (g : BitVec 7) : Statement (.ohdr g) := header_of_body _
theorem ofill (g : BitVec 7) (v : BitVec 6) : Statement (.ofill g v) := header_of_body _
theorem nsig (g : BitVec 7) (a : BitVec 1) : Statement (.nsig g a) := header_of_body _
theorem nwake (g : BitVec 7) (a : BitVec 1) : Statement (.nwake g a) := header_of_body _
theorem ndep (g : BitVec 7) (w : BitVec 2) (n : BitVec 1) : Statement (.ndep g w n) := header_of_body _
theorem nrd (g : BitVec 7) (w : BitVec 2) (c : BitVec 1) : Statement (.nrd g w c) := header_of_body _
theorem njoin (g : BitVec 7) : Statement (.njoin g) := header_of_body _
theorem nwait (g : BitVec 7) (w : BitVec 1) : Statement (.nwait g w) := header_of_body _
theorem nself (g : BitVec 7) : Statement (.nself g) := header_of_body _
theorem wwait (g : BitVec 7) (x : BitVec 1) : Statement (.wwait g x) := header_of_body _
theorem wwake (g : BitVec 7) : Statement (.wwake g) := header_of_body _
theorem srec (g : BitVec 7) (v : BitVec 6) : Statement (.srec g v) := header_of_body _
theorem swm (g : BitVec 7) : Statement (.swm g) := header_of_body _
theorem sidle (g : BitVec 7) : Statement (.sidle g) := header_of_body _
theorem swin (g : BitVec 7) : Statement (.swin g) := header_of_body _
theorem swinL (g : BitVec 7) (v : BitVec 6) : Statement (.swinL g v) := header_of_body _
theorem spub (g : BitVec 7) : Statement (.spub g) := header_of_body _
theorem samend (g : BitVec 7) : Statement (.samend g) := header_of_body _
theorem sdone (g : BitVec 7) : Statement (.sdone g) := header_of_body _
theorem mpost (g : BitVec 7) : Statement (.mpost g) := header_of_body _
theorem msend (g : BitVec 7) : Statement (.msend g) := header_of_body _
theorem mstat (g : BitVec 7) (p : BitVec 3) : Statement (.mstat g p) := header_of_body _
theorem fsreq (g : BitVec 7) (w : BitVec 2) : Statement (.fsreq g w) := header_of_body _
theorem trap (i : BitVec 16) : Statement (.trap i) := header_of_body _
theorem brk (i : BitVec 16) : Statement (.brk i) := header_of_body _
theorem drain (a : BitVec 7) (d : BitVec 7) : Statement (.drain a d) := header_of_body _
theorem wsnap (a : BitVec 7) (b : BitVec 7) (p : BitVec 2) : Statement (.wsnap a b p) := header_of_body _
theorem accspl (p : BitVec 6) (n : BitVec 10) : Statement (.accspl p n) := header_of_body _
theorem accfil (p : BitVec 6) (n : BitVec 10) : Statement (.accfil p n) := header_of_body _
theorem mapset (a : BitVec 7) (p : BitVec 3) : Statement (.mapset a p) := header_of_body _
theorem tlbinv (a : BitVec 7) (c : BitVec 3) : Statement (.tlbinv a c) := header_of_body _
theorem psrd (d : BitVec 7) (r : BitVec 7) : Statement (.psrd d r) := header_of_body _
theorem psrdD (d : BitVec 7) (r : BitVec 7) : Statement (.psrdD d r) := header_of_body _
theorem pswr (r : BitVec 7) (a : BitVec 7) : Statement (.pswr r a) := header_of_body _
theorem pswrD (r : BitVec 7) (a : BitVec 7) : Statement (.pswrD r a) := header_of_body _
theorem mmac (t : BitVec 10) (a : BitVec 8) (b : BitVec 8) : Statement (.mmac t a b) := header_of_body _
theorem mmact (t : BitVec 10) (a : BitVec 8) (b : BitVec 8) : Statement (.mmact t a b) := header_of_body _
theorem mzero (t : BitVec 10) (y : BitVec 1) : Statement (.mzero t y) := header_of_body _
theorem mrel (p : BitVec 1) (a : BitVec 8) (b : BitVec 8) : Statement (.mrel p a b) := header_of_body _
theorem mbara (n : BitVec 4) : Statement (.mbara n) := header_of_body _
theorem mbarw (n : BitVec 4) : Statement (.mbarw n) := header_of_body _
theorem mset (n : BitVec 3) (i : BitVec 16) : Statement (.mset n i) := header_of_body _
theorem msetMode (s : BitVec 1) : Statement (.msetMode s) := header_of_body _
theorem mdec (n : BitVec 3) : Statement (.mdec n) := header_of_body _
theorem mbnz (n : BitVec 3) (d : BitVec 23) : Statement (.mbnz n d) := header_of_body _
theorem mbstAb (d : BitVec 23) : Statement (.mbstAb d) := header_of_body _
theorem mbstNab (d : BitVec 23) : Statement (.mbstNab d) := header_of_body _
theorem mjmp (d : BitVec 23) : Statement (.mjmp d) := header_of_body _
theorem nop : Statement (.nop) := header_of_body _
theorem ret : Statement (.ret) := header_of_body _
theorem exit : Statement (.exit) := header_of_body _
theorem region : Statement (.region) := header_of_body _
theorem lhead : Statement (.lhead) := header_of_body _
theorem reconv : Statement (.reconv) := header_of_body _
theorem rte : Statement (.rte) := header_of_body _
theorem hbcast : Statement (.hbcast) := header_of_body _
theorem mnop : Statement (.mnop) := header_of_body _
theorem mend : Statement (.mend) := header_of_body _
theorem runArbitration (core part : Nat) : Statement (.runArbitration core part) := header_of_body _
theorem resultWriteback (k : WKey) : Statement (.resultWriteback k) := header_of_body _
theorem loadDataArrival (k : WKey) (id : Nat) : Statement (.loadDataArrival k id) := header_of_body _
theorem mmacComplete (core slot : Nat) : Statement (.mmacComplete core slot) := header_of_body _
theorem engineOpComplete (id : Nat) : Statement (.engineOpComplete id) := header_of_body _
theorem copyResume (id : Nat) : Statement (.copyResume id) := header_of_body _
theorem rackingSpill (k : WKey) : Statement (.rackingSpill k) := header_of_body _
theorem rackingRefill (k : WKey) : Statement (.rackingRefill k) := header_of_body _
theorem rackingTransferDone (k : WKey) : Statement (.rackingTransferDone k) := header_of_body _
theorem sendResolve (id : Nat) : Statement (.sendResolve id) := header_of_body _
theorem messageDelivery (id : Nat) : Statement (.messageDelivery id) := header_of_body _
theorem bouncePlacement (id : Nat) : Statement (.bouncePlacement id) := header_of_body _
theorem lauterContribution (id : Nat) : Statement (.lauterContribution id) := header_of_body _
theorem hostNsig (c slot : Nat) : Statement (.hostNsig c slot) := header_of_body _
theorem hostNwake (c slot : Nat) : Statement (.hostNwake c slot) := header_of_body _
theorem hostNdep (c slot : Nat) : Statement (.hostNdep c slot) := header_of_body _
theorem hostTake (c slot : Nat) : Statement (.hostTake c slot) := header_of_body _
theorem hostNrd (c slot : Nat) : Statement (.hostNrd c slot) := header_of_body _
theorem hostWwait (c slot : Nat) : Statement (.hostWwait c slot) := header_of_body _
theorem hostWwake (c slot : Nat) : Statement (.hostWwake c slot) := header_of_body _
theorem hostMpost (c slot : Nat) : Statement (.hostMpost c slot) := header_of_body _
theorem hostMstat (c slot : Nat) : Statement (.hostMstat c slot) := header_of_body _
theorem hostPlace (c slot : Nat) : Statement (.hostPlace c slot) := header_of_body _
theorem contextCreate (c : Nat) (desc : DWord) : Statement (.contextCreate c desc) := header_of_body _
theorem launchQueueConfig (q : Nat) (base : DWord) (log2n prio c : Nat) : Statement (.launchQueueConfig q base log2n prio c) := header_of_body _
theorem launchRecordTake (q : Nat) : Statement (.launchRecordTake q) := header_of_body _
theorem launchDependenceMet (q : Nat) : Statement (.launchDependenceMet q) := header_of_body _
theorem blockAdmit (launch core : Nat) : Statement (.blockAdmit launch core) := header_of_body _
theorem blockSwap (launch core : Nat) : Statement (.blockSwap launch core) := header_of_body _
theorem preemptRequest (c : Nat) (cores : List Nat) (free : Bool) : Statement (.preemptRequest c cores free) := header_of_body _
theorem blockSave (core slot : Nat) : Statement (.blockSave core slot) := header_of_body _
theorem t1Expiry (c : Nat) : Statement (.t1Expiry c) := header_of_body _
theorem t2Expiry (c : Nat) : Statement (.t2Expiry c) := header_of_body _
theorem blockRestore (launch rank core : Nat) : Statement (.blockRestore launch rank core) := header_of_body _
theorem migrationBegin (core slot dest : Nat) : Statement (.migrationBegin core slot dest) := header_of_body _
theorem transitTimeout (name : DWord) : Statement (.transitTimeout name) := header_of_body _
theorem hostThreadRegister (c : Nat) (name wake : DWord) : Statement (.hostThreadRegister c name wake) := header_of_body _
theorem hostThreadRetire (name : DWord) : Statement (.hostThreadRetire name) := header_of_body _
theorem nameFlush : Statement (.nameFlush) := header_of_body _
theorem handlerEntry (core : Nat) : Statement (.handlerEntry core) := header_of_body _
theorem drainWindowExpiry (core : Nat) : Statement (.drainWindowExpiry core) := header_of_body _
theorem faultQueueAppend : Statement (.faultQueueAppend) := header_of_body _
theorem faultResumeToken (token : DWord) : Statement (.faultResumeToken token) := header_of_body _
theorem mgmtRegisterWrite (r : MgmtReg) (idx : Nat) (v : DWord) : Statement (.mgmtRegisterWrite r idx v) := header_of_body _
theorem streamConfigure (n : Nat) (desc : DWord) : Statement (.streamConfigure n desc) := header_of_body _
theorem streamUnbind (n : Nat) : Statement (.streamUnbind n) := header_of_body _
theorem sourceIdleTimeout (n src : Nat) : Statement (.sourceIdleTimeout n src) := header_of_body _
theorem activationStart (n : Nat) : Statement (.activationStart n) := header_of_body _
theorem checkpointStart (desc : DWord) : Statement (.checkpointStart desc) := header_of_body _
theorem checkpointFreeze : Statement (.checkpointFreeze) := header_of_body _
theorem frozenGranuleWrite (ordinal : Nat) : Statement (.frozenGranuleWrite ordinal) := header_of_body _
theorem checkpointGranuleSend (ordinal : Nat) : Statement (.checkpointGranuleSend ordinal) := header_of_body _
theorem checkpointPeerAck (ordinal : Nat) : Statement (.checkpointPeerAck ordinal) := header_of_body _
theorem linkFlitReplay (link : Nat) : Statement (.linkFlitReplay link) := header_of_body _
theorem linkDown (link : Nat) : Statement (.linkDown link) := header_of_body _
theorem inboundFlit (key : Half) (src : Nat) (op : FlitOp) : Statement (.inboundFlit key src op) := header_of_body _
theorem fenceRevoke (module : Nat) : Statement (.fenceRevoke module) := header_of_body _
theorem sparePowerUp : Statement (.sparePowerUp) := header_of_body _
theorem rehome (die : Nat) : Statement (.rehome die) := header_of_body _
theorem dieOvertemp (die : Nat) : Statement (.dieOvertemp die) := header_of_body _
theorem powerCapSet (watts : Nat) : Statement (.powerCapSet watts) := header_of_body _
theorem attestationRequest (nonce : DWord) : Statement (.attestationRequest nonce) := header_of_body _
theorem bringUp (harvest : List (BitVec 36)) (spare : Nat) : Statement (.bringUp harvest spare) := header_of_body _
theorem contextReset (c : Nat) (release : Bool) : Statement (.contextReset c release) := header_of_body _
theorem scrubbing (u : ScrubUnit) (uncorrectable : Bool) : Statement (.scrubbing u uncorrectable) := header_of_body _
theorem clockLowering (units : Nat) : Statement (.clockLowering units) := header_of_body _
theorem cxlMemHostAccess (pa : Nat) (write : Option (List Byte)) : Statement (.cxlMemHostAccess pa write) := header_of_body _

end Sys2Proof.Laws.Header
end

