-- ==== Sys2Proof/Laws/Results.lean ====
section
/-!
SUPPORT. Results in flight: what `put` and `put2` do to the registers once everything in flight has landed (R46, R48).
-/
namespace Sys2Proof.Machine

/-! ## One write after another -/

theorem blend_get (l : Word) (x y : VReg) (i : Nat) (h : i < 32) :
    (blend l x y)[i] = if l[i] then x[i] else y[i] := by
  simp [blend]

/-- A write after a write to the same lanes: the older one is left with the lanes the newer one does not take. -/
theorem blend_blend (l m : Word) (x y z : VReg) :
    blend l x (blend m y z) = blend (m &&& ~~~l) y (blend l x z) := by
  apply Vector.ext
  intro i hi
  simp only [blend_get, BitVec.getElem_and, BitVec.getElem_not]
  by_cases h : l[i] <;> by_cases k : m[i] <;> simp [h, k]

theorem blend_zero (x z : VReg) : blend 0 x z = z := by
  apply Vector.ext
  intro i hi
  simp only [blend_get]
  simp

theorem vec_get_set {n : Nat} {α : Type} (v : Vector α n) (i j : Nat) (a d : α) :
    (v.setIfInBounds i a)[j]?.getD d = if i = j ∧ j < n then a else v[j]?.getD d := by
  by_cases h : i = j
  · subst h
    by_cases k : i < n <;> simp [k]
  · simp [h, Vector.getElem?_setIfInBounds_ne]

theorem vec_set_get {n : Nat} {α : Type} (v : Vector α n) (i : Nat) (d : α) :
    v.setIfInBounds i (v[i]?.getD d) = v := by
  apply Vector.ext
  intro j hj
  by_cases h : i = j
  · subst h
    simp [hj]
  · rw [Vector.getElem_setIfInBounds_ne _ h]

theorem vec_set_set {n : Nat} {α : Type} (v : Vector α n) (i : Nat) (a b : α) :
    (v.setIfInBounds i a).setIfInBounds i b = v.setIfInBounds i b := by
  apply Vector.ext
  intro j hj
  by_cases h : i = j
  · subst h
    simp
  · simp [Vector.getElem_setIfInBounds_ne, h]

theorem vec_set_out {n : Nat} {α : Type} (v : Vector α n) (i : Nat) (a : α) (h : ¬i < n) : v.setIfInBounds i a = v := by
  apply Vector.ext
  intro j hj
  exact Vector.getElem_setIfInBounds_ne _ (by omega)

theorem vec_set_comm {n : Nat} {α : Type} (v : Vector α n) {i j : Nat} (a b : α) (h : i ≠ j) :
    (v.setIfInBounds i a).setIfInBounds j b = (v.setIfInBounds j b).setIfInBounds i a := by
  apply Vector.ext
  intro k hk
  by_cases h1 : i = k
  · subst h1
    rw [Vector.getElem_setIfInBounds_ne _ (Ne.symm h)]
    simp
  · by_cases h2 : j = k
    · subst h2
      rw [Vector.getElem_setIfInBounds_ne _ h]
      simp
    · simp [Vector.getElem_setIfInBounds_ne, h1, h2]

def Dest.isVec : Dest → Bool
  | .vf _ => true
  | .vr _ => true
  | _ => false

/-- One write made. -/
def Warp.act (w : Warp) (x : Write) : Warp := w.writeDest x.dest x.lanes x.val

/-- What is left of an older write once newer ones to `ds` have taken `lanes`. -/
def Write.left (ds : List Dest) (lanes : Word) (x : Write) : Option Write :=
  if x.dest ∈ ds then (if x.dest.isVec then some { x with lanes := x.lanes &&& ~~~lanes } else none) else some x

def Warp.actO (w : Warp) : Option Write → Warp
  | some x => w.act x
  | .none => w

/-- A predicate bit set or cleared. -/
theorem pred_bit (x : BitVec 8) (n i : Nat) (c : Bool) (hi : i < 8) :
    (if c then x &&& ~~~(1#8 <<< n) else x ||| (1#8 <<< n))[i] = if i = n then !c else x[i] := by
  have k : (1#8 <<< n)[i] = decide (i = n) := by
    simp only [BitVec.getElem_shiftLeft]
    by_cases h : i < n
    · have : i ≠ n := by omega
      simp [h, this]
    · by_cases g : i = n <;> simp [h, g] <;> omega
  cases c <;> simp [k] <;> by_cases g : i = n <;> simp [g]

theorem pred_comm (x : BitVec 8) {a b : Nat} (c d : Bool) (h : a ≠ b) :
    (let y := if c then x &&& ~~~(1#8 <<< a) else x ||| (1#8 <<< a); if d then y &&& ~~~(1#8 <<< b) else y ||| (1#8 <<< b)) =
    (let y := if d then x &&& ~~~(1#8 <<< b) else x ||| (1#8 <<< b); if c then y &&& ~~~(1#8 <<< a) else y ||| (1#8 <<< a)) := by
  apply BitVec.eq_of_getElem_eq
  intro i hi
  simp only [pred_bit]
  by_cases h1 : i = a <;> by_cases h2 : i = b <;> simp [h1, h2]
  · exact absurd (h1.symm.trans h2) h
  all_goals (intro k; omega)

theorem writeDest_comm (w : Warp) {d e : Dest} (l m : Word) (v u : VReg) (h : d ≠ e) :
    (w.writeDest e m u).writeDest d l v = (w.writeDest d l v).writeDest e m u := by
  cases d <;> cases e <;> simp only [Warp.writeDest] <;> try rfl
  case u.u a b => simp only [Warp.mk.injEq, and_true, true_and]; exact vec_set_comm _ _ _ (fun k => h (by rw [k]))
  case vf.vf a b =>
    have k : a ≠ b := fun k => h (by rw [k])
    simp only [Warp.mk.injEq, and_true, true_and, vec_get_set, k, Ne.symm k, false_and, if_false]
    exact vec_set_comm _ _ _ k.symm
  case vr.vr a b =>
    have k : a ≠ b := fun k => h (by rw [k])
    simp only [Warp.mk.injEq, and_true, true_and, vec_get_set, k, Ne.symm k, false_and, if_false]
    exact vec_set_comm _ _ _ k.symm
  case p.p a b =>
    have k : b ≠ a := fun k => h (by rw [k])
    split <;> split <;> try rfl
    simp only [Warp.mk.injEq, and_true, true_and]
    simpa using pred_comm w.preds (decide (u[0] = 0)) (decide (v[0] = 0)) k
  case m.m a b =>
    split <;> split <;> try rfl
    simp only [Warp.mk.injEq, and_true, true_and]
    exact vec_set_comm _ _ _ (fun k => h (by rw [k]))
  case q.q a b => simp only [Warp.mk.injEq, and_true, true_and]; exact vec_set_comm _ _ _ (fun k => h (by rw [k]))
  all_goals first
    | (split <;> rfl)
    | (split <;> split <;> rfl)

theorem act_same (w : Warp) (d : Dest) (l m : Word) (v u : VReg) :
    (w.writeDest d m u).writeDest d l v =
      if d.isVec then (w.writeDest d l v).writeDest d (m &&& ~~~l) u else w.writeDest d l v := by
  cases d with
  | u n => simp [Warp.writeDest, Dest.isVec]
  | vf n =>
    simp only [Warp.writeDest, Dest.isVec, if_true, vec_get_set, vec_set_set]
    by_cases h : n < 16
    · simp only [h, and_true, if_true]
      rw [blend_blend]
    · simp only [vec_set_out _ _ _ h]
  | vr n =>
    simp only [Warp.writeDest, Dest.isVec, if_true, vec_get_set, vec_set_set]
    by_cases h : n < 176
    · simp only [h, and_true, if_true]
      rw [blend_blend]
    · simp only [vec_set_out _ _ _ h]
  | p n =>
    simp only [Warp.writeDest, Dest.isVec]
    split
    · rfl
    · simp only [Bool.false_eq_true, if_false, Warp.mk.injEq, and_true, true_and]
      have := fun (c d : Bool) (x : BitVec 8) => show
        (let y := if c then x &&& ~~~(1#8 <<< n) else x ||| (1#8 <<< n); if d then y &&& ~~~(1#8 <<< n) else y ||| (1#8 <<< n)) =
          if d then x &&& ~~~(1#8 <<< n) else x ||| (1#8 <<< n) from by
        apply BitVec.eq_of_getElem_eq
        intro i hi
        simp only [pred_bit]
        by_cases h : i = n <;> simp [h]
      simpa using this (decide (u[0] = 0)) (decide (v[0] = 0)) w.preds
  | m n =>
    simp only [Warp.writeDest, Dest.isVec]
    split
    · rfl
    · simp
  | q n => simp [Warp.writeDest, Dest.isVec]

theorem act_none (w : Warp) (d : Dest) (u : VReg) (h : d.isVec = true) : w.writeDest d 0 u = w := by
  cases d with
  | vf n =>
    show { w with vfix := _ } = w
    rw [blend_zero, vec_set_get]
  | vr n =>
    show { w with ring := _ } = w
    rw [blend_zero, vec_set_get]
  | _ => cases h

theorem act_left (w : Warp) (d : Dest) (l : Word) (v : VReg) (x : Write) :
    (w.act x).writeDest d l v = (w.writeDest d l v).actO (x.left [d] l) := by
  by_cases h : x.dest = d
  · subst h
    simp only [Warp.act, Write.left, List.mem_singleton, if_true]
    rw [act_same]
    split <;> rfl
  · simp only [Write.left, List.mem_singleton, h, if_false]
    exact writeDest_comm w l x.lanes v x.val (fun k => h k.symm)

/-- Writes to `ds`, all in `lanes`. -/
def news (lanes : Word) (ds : List (Dest × VReg)) : List Write := ds.map fun x => ⟨x.1, lanes, x.2⟩

theorem mask_twice (m l : Word) : m &&& ~~~l &&& ~~~l = m &&& ~~~l := by
  rw [BitVec.and_assoc, BitVec.and_self]

theorem left_left (ds : List Dest) (d : Dest) (l : Word) (x : Write) :
    ((x.left [d] l).bind (Write.left ds l)) = x.left (d :: ds) l := by
  by_cases h : x.dest = d <;> by_cases k : x.dest ∈ ds <;> by_cases v : x.dest.isVec <;>
    simp_all [Write.left, mask_twice]

/-- What new writes in `lanes` leave of an older one, made after them, is what it did before them. -/
theorem act_news (ds : List (Dest × VReg)) (l : Word) (w : Warp) (x : Write) :
    (w.act x).writes (news l ds) = (w.writes (news l ds)).actO (x.left (ds.map (·.1)) l) := by
  induction ds generalizing w x with
  | nil => simp [news, Warp.writes, Write.left, Warp.actO]
  | cons d r ih =>
    have step : ∀ w : Warp, w.writes (news l (d :: r)) = (w.writeDest d.1 l d.2).writes (news l r) := fun _ => rfl
    rw [step, step, act_left, List.map_cons, ← left_left (List.map (·.1) r)]
    cases k : x.left [d.1] l with
    | none => rfl
    | some y => exact ih _ _

def Pend.w (p : Pend) : Write := ⟨p.dest, p.lanes, p.val⟩

theorem overlaid_cons (ds : List Dest) (l : Word) (p : Pend) (r : List Pend) :
    overlaid ds l (p :: r) =
      if p.dest ∈ ds then (if p.lanes &&& ~~~l = 0 then overlaid ds l r else { p with lanes := p.lanes &&& ~~~l } :: overlaid ds l r)
      else p :: overlaid ds l r := by
  by_cases h : p.dest ∈ ds <;> by_cases k : p.lanes &&& ~~~l = 0#32 <;>
    simp [overlaid, h, k]

/-- New writes made after what `overlaid` leaves of the older results, and after all of them, end alike. -/
theorem overlaid_act (ds : List (Dest × VReg)) (l : Word) (ps : List Pend) (w w' : Warp)
    (h : w.writes (news l ds) = w'.writes (news l ds)) :
    (((overlaid (ds.map (·.1)) l ps).foldl (fun a p => a.writeDest p.dest p.lanes p.val) w).writes (news l ds)) =
      ((ps.foldl (fun a p => a.writeDest p.dest p.lanes p.val) w').writes (news l ds)) := by
  induction ps generalizing w w' with
  | nil => exact h
  | cons p r ih =>
    have one (u : Warp) (m : Word) : (u.writeDest p.dest m p.val).writes (news l ds) =
        (u.writes (news l ds)).actO (Write.left (ds.map (·.1)) l ⟨p.dest, m, p.val⟩) := act_news ds l u ⟨p.dest, m, p.val⟩
    rw [overlaid_cons]
    by_cases hm : p.dest ∈ ds.map (·.1)
    · rw [if_pos hm]
      by_cases hz : p.lanes &&& ~~~l = 0
      · rw [if_pos hz, List.foldl_cons]
        apply ih
        rw [h, one]
        simp only [Write.left, if_pos hm, hz]
        by_cases v : p.dest.isVec = true
        · simp only [v, if_true, Warp.actO, Warp.act]
          exact (act_none _ _ _ v).symm
        · simp [v, Warp.actO]
      · rw [if_neg hz, List.foldl_cons, List.foldl_cons]
        apply ih
        simp only [one, h, Write.left, if_pos hm, mask_twice]
    · rw [if_neg hm, List.foldl_cons, List.foldl_cons]
      apply ih
      rw [one, one, h]

/-! ## What `put` and `put2` do -/

theorem settleAll_eq (w : Warp) : w.settleAll = { w.pend.foldl (fun a p => a.writeDest p.dest p.lanes p.val) w with pend := [] } := rfl

theorem writeDest_pend (w : Warp) (d : Dest) (l : Word) (v : VReg) (ps : List Pend) :
    ({ w with pend := ps } : Warp).writeDest d l v = { w.writeDest d l v with pend := ps } := by
  cases d <;> simp only [Warp.writeDest] <;> split <;> rfl

theorem fold_pend (xs : List Pend) (w : Warp) (ps : List Pend) :
    xs.foldl (fun a p => a.writeDest p.dest p.lanes p.val) { w with pend := ps } =
      { xs.foldl (fun a p => a.writeDest p.dest p.lanes p.val) w with pend := ps } := by
  induction xs generalizing w with
  | nil => rfl
  | cons x r ih => rw [List.foldl_cons, List.foldl_cons, writeDest_pend, ih]

theorem writes_pend (w : Warp) (l : List Write) (ps : List Pend) :
    ({ w with pend := ps } : Warp).writes l = { w.writes l with pend := ps } := by
  induction l generalizing w with
  | nil => rfl
  | cons x r ih =>
    show (Warp.writeDest _ _ _ _).writes r = _
    rw [writeDest_pend, ih]
    rfl

/-- The results in flight of a warp whose newest ones, in the same lanes, take over from the older ones. -/
theorem settle_news (w : Warp) (ds : List (Dest × VReg)) (l : Word) (new : List Pend)
    (h : new.map Pend.w = news l ds) :
    ({ w with pend := overlaid (ds.map (·.1)) l w.pend ++ new } : Warp).settleAll = w.settleAll.writes (news l ds) := by
  have k : ∀ (u : Warp), new.foldl (fun a p => a.writeDest p.dest p.lanes p.val) u = u.writes (news l ds) := by
    intro u
    rw [← h, Warp.writes, List.foldl_map]
    rfl
  rw [settleAll_eq, settleAll_eq, writes_pend]
  simp only [List.foldl_append, fold_pend, k, writes_pend, overlaid_act ds l w.pend w w rfl]

/-- `t` is `s` with the writes `l` in flight. -/
structure Puts (s t : State) (lat : Option Nat) (l : List Write) : Prop where
  rest : t = { s with nextId := t.nextId, warp := { s.warp with pend := t.warp.pend } }
  regs : t.warp.settleAll = s.warp.settleAll.writes l
  due : ∀ x ∈ l, ∃ p ∈ t.warp.pend, p.dest = x.dest ∧ p.due = lat.map (s.clock + ·)
  kept : ∀ p ∈ s.warp.pend, (∃ q ∈ t.warp.pend, q.dest = p.dest ∧ q.due = p.due) ∨ ∃ x ∈ l, x.dest = p.dest

theorem overlaid_kept (ds : List Dest) (l : Word) (ps : List Pend) (p : Pend) (h : p ∈ ps) :
    (∃ q ∈ overlaid ds l ps, q.dest = p.dest ∧ q.due = p.due) ∨ p.dest ∈ ds := by
  by_cases k : p.dest ∈ ds
  · exact .inr k
  · refine .inl ⟨p, ?_, rfl, rfl⟩
    simp only [overlaid, List.mem_filterMap]
    refine ⟨p, h, ?_⟩
    have : ds.contains p.dest = false := by simpa using k
    rw [if_neg]
    simp [k]

theorem put_puts (s : State) (lat : Option Nat) (d : Dest) (l : Word) (v : VReg) :
    Puts s (s.put lat d l v) lat [⟨d, l, v⟩] where
  rest := rfl
  regs := settle_news s.warp [(d, v)] l [⟨s.nextId, lat.map (s.clock + ·), executeWord s.issue.word, requestWord s.issue.word, d, l, v⟩] rfl
  due := by
    intro x h
    rw [List.mem_singleton] at h
    subst h
    exact ⟨⟨s.nextId, lat.map (s.clock + ·), executeWord s.issue.word, requestWord s.issue.word, d, l, v⟩, by simp [State.put], rfl, rfl⟩
  kept := by
    intro p h
    rcases overlaid_kept [d] l s.warp.pend p h with ⟨q, k, e⟩ | k
    · exact .inl ⟨q, by simp [State.put, k], e⟩
    · exact .inr ⟨⟨d, l, v⟩, by simp, by simpa using (List.mem_singleton.mp k).symm⟩

theorem put2_puts (s : State) (lat : Option Nat) (d e : Dest) (l : Word) (v w : VReg) :
    Puts s (s.put2 lat d e l v w) lat [⟨d, l, v⟩, ⟨e, l, w⟩] where
  rest := rfl
  regs := settle_news s.warp [(d, v), (e, w)] l
    [⟨s.nextId, lat.map (s.clock + ·), executeWord s.issue.word, requestWord s.issue.word, d, l, v⟩, ⟨s.nextId, lat.map (s.clock + ·), executeWord s.issue.word, requestWord s.issue.word, e, l, w⟩] rfl
  due := by
    intro x h
    simp only [List.mem_cons, List.not_mem_nil, or_false] at h
    rcases h with h | h <;> subst h
    · exact ⟨⟨s.nextId, lat.map (s.clock + ·), executeWord s.issue.word, requestWord s.issue.word, d, l, v⟩, by simp [State.put2], rfl, rfl⟩
    · exact ⟨⟨s.nextId, lat.map (s.clock + ·), executeWord s.issue.word, requestWord s.issue.word, e, l, w⟩, by simp [State.put2], rfl, rfl⟩
  kept := by
    intro p h
    rcases overlaid_kept [d, e] l s.warp.pend p h with ⟨q, k, g⟩ | k
    · exact .inl ⟨q, by simp [State.put2, k], g⟩
    · simp only [List.mem_cons, List.not_mem_nil, or_false] at k
      rcases k with k | k
      · exact .inr ⟨⟨d, l, v⟩, by simp, k.symm⟩
      · exact .inr ⟨⟨e, l, w⟩, by simp, k.symm⟩

theorem Puts.trans {s t u : State} {lat : Option Nat} {l m : List Write} (h : Puts s t lat l) (k : Puts t u lat m) :
    Puts s u lat (l ++ m) where
  rest := by
    rw [k.rest, h.rest]
  regs := by
    rw [k.regs, h.regs]
    simp [Warp.writes, List.foldl_append]
  due := by
    have c : t.clock = s.clock := by rw [h.rest]
    intro x hx
    rcases List.mem_append.mp hx with hx | hx
    · obtain ⟨p, hp, e, f⟩ := h.due x hx
      rcases k.kept p hp with ⟨q, hq, e', f'⟩ | ⟨y, hy, e'⟩
      · exact ⟨q, hq, e'.trans e, f'.trans f⟩
      · obtain ⟨q, hq, e2, f2⟩ := k.due y hy
        exact ⟨q, hq, e2.trans (e'.trans e), by rw [f2, c]⟩
    · obtain ⟨p, hp, e, f⟩ := k.due x hx
      exact ⟨p, hp, e, by rw [f, c]⟩
  kept := by
    intro p hp
    rcases h.kept p hp with ⟨q, hq, e, f⟩ | ⟨x, hx, e⟩
    · rcases k.kept q hq with ⟨r, hr, e', f'⟩ | ⟨x, hx, e'⟩
      · exact .inl ⟨r, hr, e'.trans e, f'.trans f⟩
      · exact .inr ⟨x, List.mem_append_right _ hx, e'.trans e⟩
    · exact .inr ⟨x, List.mem_append_left _ hx, e⟩

/-- A word that completes with its results in flight. -/
theorem Puts.done {s t : State} {lat : Option Nat} {l : List Write} (h : Puts s t lat l) :
    ∃ u, Sys2Proof.Machine.done t = .next u ∧ Lands s u lat l := by
  refine ⟨_, rfl, { rest := ?_, regs := h.regs, due := h.due }⟩
  obtain ⟨n, p, k⟩ : ∃ n p, t = { s with nextId := n, warp := { s.warp with pend := p } } := ⟨_, _, h.rest⟩
  rw [k]

/-! ## The destinations of R71 and R13 -/

theorem putU_puts (s : State) (lat : Option Nat) (n : Nat) (v : Word) : Puts s (s.putU lat n v) lat [uW n v] := put_puts ..

theorem putUD_puts (s : State) (lat : Option Nat) (n : Nat) (v : DWord) : Puts s (s.putUD lat n v) lat (uPair n v) := put2_puts ..

theorem putP_puts (s : State) (lat : Option Nat) (n : Nat) (v : Bool) : Puts s (s.putP lat n v) lat [pW n v] := put_puts ..

theorem putM_puts (s : State) (lat : Option Nat) (n : Nat) (v : Word) : Puts s (s.putM lat n v) lat [mW n v] := put_puts ..

theorem blend_ofFn (e : Word) (v : VReg) : blend e v zeroVec = Vector.ofFn fun l => if e.getLsbD l then v[l] else 0 := by
  apply Vector.ext
  intro i h
  simp [blend, zeroVec]

theorem putV_puts (s : State) (lat : Option Nat) (n : Nat) (v : VReg) : Puts s (s.putV lat n v) lat [s.vW n v] := by
  unfold State.putV State.vW
  rw [← blend_ofFn]
  split
  · exact put_puts ..
  · exact put_puts ..

theorem putMatch_puts (s : State) (lat : Option Nat) (n : Nat) (v : VReg) : Puts s (s.putMatch lat n v) lat [s.zW n v] := by
  unfold State.putMatch State.zW
  rw [← blend_ofFn]
  exact put_puts ..

theorem putV2_puts (s : State) (lat : Option Nat) (n : Nat) (x y : VReg) :
    Puts s (s.putV2 lat n x y) lat [s.vW n x, s.vW (n + 1) y] := by
  unfold State.putV2 State.vW
  rw [← blend_ofFn, ← blend_ofFn]
  split
  · exact put2_puts ..
  · exact put2_puts ..

/-- Destinations do not move while a word writes. -/
theorem Puts.vW {s t : State} {lat : Option Nat} {l : List Write} (h : Puts s t lat l) (n : Nat) (v : VReg) : t.vW n v = s.vW n v := by
  rw [h.rest]
  rfl

theorem popDq_frame (s : State) (n : Nat) : (s.popDq n).2 = { s with warp := { s.warp with dq := (s.popDq n).2.warp.dq, dqWait := (s.popDq n).2.warp.dqWait } } := by
  unfold State.popDq
  split <;> rfl

theorem vsrc_frame (s : State) (k : Nat) (f : BitVec 6) :
    (s.vsrc k f).2 = { s with warp := { s.warp with dq := (s.vsrc k f).2.warp.dq, dqWait := (s.vsrc k f).2.warp.dqWait } } := by
  unfold State.vsrc
  split
  · exact popDq_frame s _
  · rfl

theorem vsrc2_frame (s : State) (a b : BitVec 6) :
    (s.vsrc2 a b).2.2 = { s with warp := { s.warp with dq := (s.vsrc2 a b).2.2.warp.dq, dqWait := (s.vsrc2 a b).2.2.warp.dqWait } } := by
  have h := vsrc_frame (s.vsrc 2 a).2 1 b
  rw [show (s.vsrc2 a b).2.2 = ((s.vsrc 2 a).2.vsrc 1 b).2 from rfl, h, vsrc_frame s 2 a]

theorem vsrc3_frame (s : State) (a b : BitVec 6) :
    (s.vsrc3 a b).2.2.2 = { s with warp := { s.warp with dq := (s.vsrc3 a b).2.2.2.warp.dq, dqWait := (s.vsrc3 a b).2.2.2.warp.dqWait } } := by
  have h := vsrc_frame (s.vsrc2 a b).2.2 0 (s.vsrc2 a b).2.2.pfx.v
  rw [show (s.vsrc3 a b).2.2.2 = ((s.vsrc2 a b).2.2.vsrc 0 (s.vsrc2 a b).2.2.pfx.v).2 from rfl, h, vsrc2_frame s a b]

/-! ## The moulds of lane-wise words -/

theorem vsrc_vW (s : State) (k : Nat) (f : BitVec 6) (n : Nat) (v : VReg) : (s.vsrc k f).2.vW n v = s.vW n v := by
  rw [vsrc_frame]
  rfl

theorem vsrc2_vW (s : State) (a b : BitVec 6) (n : Nat) (v : VReg) : (s.vsrc2 a b).2.2.vW n v = s.vW n v := by
  rw [vsrc2_frame]
  rfl

theorem vsrc2_V (s : State) (a b : BitVec 6) (n : Nat) : (s.vsrc2 a b).2.2.V n = s.V n := by
  rw [vsrc2_frame]
  rfl

theorem vsrc2_E (s : State) (a b : BitVec 6) : (s.vsrc2 a b).2.2.E = s.E := by
  rw [vsrc2_frame]
  rfl

theorem vec1_puts (lat : Option Nat) (f : Word → Word) (d a : BitVec 6) (s : State) :
    Puts (s.vsrc 2 a).2 (vec1 lat f d a s) lat [s.vW d.toNat (Vector.ofFn fun l => f ((s.vsrc 2 a).1)[l])] := by
  rw [← vsrc_vW s 2 a]
  exact putV_puts ..

theorem vec2_puts (lat : Option Nat) (f : Word → Word → Word) (d a b : BitVec 6) (s : State) :
    Puts (s.vsrc2 a b).2.2 (vec2 lat f d a b s) lat
      [s.vW d.toNat (Vector.ofFn fun l => f ((s.vsrc2 a b).1)[l] ((s.vsrc2 a b).2.1)[l])] := by
  rw [← vsrc2_vW s a b]
  exact putV_puts ..

theorem vecAcc_puts (lat : Option Nat) (f : Word → Word → Word → Word) (d a b : BitVec 6) (s : State) :
    Puts (s.vsrc2 a b).2.2 (vecAcc lat f d a b s) lat
      [s.vW d.toNat (Vector.ofFn fun l => f ((s.vsrc2 a b).1)[l] ((s.vsrc2 a b).2.1)[l] (s.V d.toNat)[l])] := by
  rw [← vsrc2_vW s a b, ← vsrc2_V s a b]
  exact putV_puts ..

/-- A mask built lane by lane. -/
theorem fold_bits (f : Fin 32 → Bool) (k : Fin 32) :
    ((List.finRange 32).foldl (fun a i => if f i then a ||| (1#32 <<< i.val) else a) 0#32)[k.val] = f k := by
  have gen : ∀ (l : List (Fin 32)) (a : Word),
      (l.foldl (fun a i => if f i then a ||| (1#32 <<< i.val) else a) a)[k.val] = (a[k.val] || (f k && decide (k ∈ l))) := by
    intro l
    induction l with
    | nil => intro a; simp
    | cons x r ih =>
      intro a
      rw [List.foldl_cons, ih]
      by_cases h : f x <;> by_cases e : k = x
      · subst e; simp [h]
      · have : k.val ≠ x.val := fun q => e (Fin.ext q)
        have z : (1#32 <<< x.val)[k.val] = false := by
          rw [BitVec.getElem_shiftLeft]
          by_cases g : k.val < x.val <;> simp [g] <;> omega
        simp [h, e, z]
      · subst e; simp [h]
      · simp [h, e]
  rw [gen]
  simp [List.mem_finRange]

theorem putLaneMask_puts (s : State) (lat : Option Nat) (n : Nat) (f : Fin 32 → Bool) :
    ∃ v : Word, (∀ l : Fin 32, v.getLsbD l = (s.E.getLsbD l && f l)) ∧ Puts s (s.putLaneMask lat n f) lat [mW n v] := by
  refine ⟨_, ?_, putM_puts ..⟩
  intro l
  have := fold_bits f l
  simp only [BitVec.getLsbD_eq_getElem l.isLt, BitVec.getElem_and]
  rw [this]

theorem vecCmp_gives {i : Instr} (lat : Option Nat) (f : Word → Word → Bool) (m : BitVec 3) (a b : BitVec 6) (s : State)
    (h : exec i s = done (vecCmp lat f m a b s)) :
    GivesMask i s (s.vsrc2 a b).2.2 lat m.toNat fun l => f ((s.vsrc2 a b).1)[l] ((s.vsrc2 a b).2.1)[l] := by
  obtain ⟨v, e, k⟩ := putLaneMask_puts (s.vsrc2 a b).2.2 lat m.toNat fun l => f ((s.vsrc2 a b).1)[l] ((s.vsrc2 a b).2.1)[l]
  rw [vsrc2_E] at e
  refine ⟨v, e, ?_⟩
  unfold Gives
  rw [h]
  exact k.done

end Sys2Proof.Machine
end

