-- ==== Sys2Proof/Laws/State.lean ====
section
/-!
SUPPORT. One lemma per field per update of the state, each true by definition, so that no proof unfolds a record update.
-/
namespace Sys2Proof.Machine

/-! ## `setSplit` -/

@[simp] theorem State.setSplit_clock (s : State) (p : Split) : (s.setSplit p).clock = s.clock := rfl
@[simp] theorem State.setSplit_time19 (s : State) (p : Split) : (s.setSplit p).time19 = s.time19 := rfl
@[simp] theorem State.setSplit_wall (s : State) (p : Split) : (s.setSplit p).wall = s.wall := rfl
@[simp] theorem State.setSplit_unitsPerCycle (s : State) (p : Split) : (s.setSplit p).unitsPerCycle = s.unitsPerCycle := rfl
@[simp] theorem State.setSplit_tick (s : State) (p : Split) : (s.setSplit p).tick = s.tick := rfl
@[simp] theorem State.setSplit_nextId (s : State) (p : Split) : (s.setSplit p).nextId = s.nextId := rfl
@[simp] theorem State.setSplit_inputs (s : State) (p : Split) : (s.setSplit p).inputs = s.inputs := rfl
@[simp] theorem State.setSplit_active (s : State) (p : Split) : (s.setSplit p).active = s.active := rfl
@[simp] theorem State.setSplit_issue (s : State) (p : Split) : (s.setSplit p).issue = s.issue := rfl
@[simp] theorem State.setSplit_warp (s : State) (p : Split) : (s.setSplit p).warp = s.warp.setSplit s.issue.sp p := rfl
@[simp] theorem State.setSplit_blk (s : State) (p : Split) : (s.setSplit p).blk = s.blk := rfl
@[simp] theorem State.setSplit_core (s : State) (p : Split) : (s.setSplit p).core = s.core := rfl
@[simp] theorem State.setSplit_ctx (s : State) (p : Split) : (s.setSplit p).ctx = s.ctx := rfl
@[simp] theorem State.setSplit_warps (s : State) (p : Split) : (s.setSplit p).warps = s.warps := rfl
@[simp] theorem State.setSplit_blks (s : State) (p : Split) : (s.setSplit p).blks = s.blks := rfl
@[simp] theorem State.setSplit_cores (s : State) (p : Split) : (s.setSplit p).cores = s.cores := rfl
@[simp] theorem State.setSplit_ctxs (s : State) (p : Split) : (s.setSplit p).ctxs = s.ctxs := rfl
@[simp] theorem State.setSplit_cbars (s : State) (p : Split) : (s.setSplit p).cbars = s.cbars := rfl
@[simp] theorem State.setSplit_mem (s : State) (p : Split) : (s.setSplit p).mem = s.mem := rfl
@[simp] theorem State.setSplit_fwmem (s : State) (p : Split) : (s.setSplit p).fwmem = s.fwmem := rfl
@[simp] theorem State.setSplit_poison (s : State) (p : Split) : (s.setSplit p).poison = s.poison := rfl
@[simp] theorem State.setSplit_lineKey (s : State) (p : Split) : (s.setSplit p).lineKey = s.lineKey := rfl
@[simp] theorem State.setSplit_cellar (s : State) (p : Split) : (s.setSplit p).cellar = s.cellar := rfl
@[simp] theorem State.setSplit_clines (s : State) (p : Split) : (s.setSplit p).clines = s.clines := rfl
@[simp] theorem State.setSplit_queues (s : State) (p : Split) : (s.setSplit p).queues = s.queues := rfl
@[simp] theorem State.setSplit_launches (s : State) (p : Split) : (s.setSplit p).launches = s.launches := rfl
@[simp] theorem State.setSplit_saved (s : State) (p : Split) : (s.setSplit p).saved = s.saved := rfl
@[simp] theorem State.setSplit_directory (s : State) (p : Split) : (s.setSplit p).directory = s.directory := rfl
@[simp] theorem State.setSplit_names (s : State) (p : Split) : (s.setSplit p).names = s.names := rfl
@[simp] theorem State.setSplit_sends (s : State) (p : Split) : (s.setSplit p).sends = s.sends := rfl
@[simp] theorem State.setSplit_bounces (s : State) (p : Split) : (s.setSplit p).bounces = s.bounces := rfl
@[simp] theorem State.setSplit_wtab (s : State) (p : Split) : (s.setSplit p).wtab = s.wtab := rfl
@[simp] theorem State.setSplit_hostq (s : State) (p : Split) : (s.setSplit p).hostq = s.hostq := rfl
@[simp] theorem State.setSplit_ops (s : State) (p : Split) : (s.setSplit p).ops = s.ops := rfl
@[simp] theorem State.setSplit_streams (s : State) (p : Split) : (s.setSplit p).streams = s.streams := rfl
@[simp] theorem State.setSplit_sops (s : State) (p : Split) : (s.setSplit p).sops = s.sops := rfl
@[simp] theorem State.setSplit_fu (s : State) (p : Split) : (s.setSplit p).fu = s.fu := rfl
@[simp] theorem State.setSplit_fab (s : State) (p : Split) : (s.setSplit p).fab = s.fab := rfl
@[simp] theorem State.setSplit_ck (s : State) (p : Split) : (s.setSplit p).ck = s.ck := rfl
@[simp] theorem State.setSplit_tlb (s : State) (p : Split) : (s.setSplit p).tlb = s.tlb := rfl

/-! ## `put` -/

@[simp] theorem State.put_clock (s : State) (lat : Option Nat) (d : Dest) (l : Word) (v : VReg) : (s.put lat d l v).clock = s.clock := rfl
@[simp] theorem State.put_time19 (s : State) (lat : Option Nat) (d : Dest) (l : Word) (v : VReg) : (s.put lat d l v).time19 = s.time19 := rfl
@[simp] theorem State.put_wall (s : State) (lat : Option Nat) (d : Dest) (l : Word) (v : VReg) : (s.put lat d l v).wall = s.wall := rfl
@[simp] theorem State.put_unitsPerCycle (s : State) (lat : Option Nat) (d : Dest) (l : Word) (v : VReg) : (s.put lat d l v).unitsPerCycle = s.unitsPerCycle := rfl
@[simp] theorem State.put_tick (s : State) (lat : Option Nat) (d : Dest) (l : Word) (v : VReg) : (s.put lat d l v).tick = s.tick := rfl
@[simp] theorem State.put_nextId (s : State) (lat : Option Nat) (d : Dest) (l : Word) (v : VReg) : (s.put lat d l v).nextId = s.nextId + 1 := rfl
@[simp] theorem State.put_inputs (s : State) (lat : Option Nat) (d : Dest) (l : Word) (v : VReg) : (s.put lat d l v).inputs = s.inputs := rfl
@[simp] theorem State.put_active (s : State) (lat : Option Nat) (d : Dest) (l : Word) (v : VReg) : (s.put lat d l v).active = s.active := rfl
@[simp] theorem State.put_issue (s : State) (lat : Option Nat) (d : Dest) (l : Word) (v : VReg) : (s.put lat d l v).issue = s.issue := rfl
@[simp] theorem State.put_warp (s : State) (lat : Option Nat) (d : Dest) (l : Word) (v : VReg) : (s.put lat d l v).warp = { s.warp with pend := overlaid [d] l s.warp.pend ++ [⟨s.nextId, lat.map (s.clock + ·), executeWord s.issue.word, requestWord s.issue.word, d, l, v⟩] } := rfl
@[simp] theorem State.put_blk (s : State) (lat : Option Nat) (d : Dest) (l : Word) (v : VReg) : (s.put lat d l v).blk = s.blk := rfl
@[simp] theorem State.put_core (s : State) (lat : Option Nat) (d : Dest) (l : Word) (v : VReg) : (s.put lat d l v).core = s.core := rfl
@[simp] theorem State.put_ctx (s : State) (lat : Option Nat) (d : Dest) (l : Word) (v : VReg) : (s.put lat d l v).ctx = s.ctx := rfl
@[simp] theorem State.put_warps (s : State) (lat : Option Nat) (d : Dest) (l : Word) (v : VReg) : (s.put lat d l v).warps = s.warps := rfl
@[simp] theorem State.put_blks (s : State) (lat : Option Nat) (d : Dest) (l : Word) (v : VReg) : (s.put lat d l v).blks = s.blks := rfl
@[simp] theorem State.put_cores (s : State) (lat : Option Nat) (d : Dest) (l : Word) (v : VReg) : (s.put lat d l v).cores = s.cores := rfl
@[simp] theorem State.put_ctxs (s : State) (lat : Option Nat) (d : Dest) (l : Word) (v : VReg) : (s.put lat d l v).ctxs = s.ctxs := rfl
@[simp] theorem State.put_cbars (s : State) (lat : Option Nat) (d : Dest) (l : Word) (v : VReg) : (s.put lat d l v).cbars = s.cbars := rfl
@[simp] theorem State.put_mem (s : State) (lat : Option Nat) (d : Dest) (l : Word) (v : VReg) : (s.put lat d l v).mem = s.mem := rfl
@[simp] theorem State.put_fwmem (s : State) (lat : Option Nat) (d : Dest) (l : Word) (v : VReg) : (s.put lat d l v).fwmem = s.fwmem := rfl
@[simp] theorem State.put_poison (s : State) (lat : Option Nat) (d : Dest) (l : Word) (v : VReg) : (s.put lat d l v).poison = s.poison := rfl
@[simp] theorem State.put_lineKey (s : State) (lat : Option Nat) (d : Dest) (l : Word) (v : VReg) : (s.put lat d l v).lineKey = s.lineKey := rfl
@[simp] theorem State.put_cellar (s : State) (lat : Option Nat) (d : Dest) (l : Word) (v : VReg) : (s.put lat d l v).cellar = s.cellar := rfl
@[simp] theorem State.put_clines (s : State) (lat : Option Nat) (d : Dest) (l : Word) (v : VReg) : (s.put lat d l v).clines = s.clines := rfl
@[simp] theorem State.put_queues (s : State) (lat : Option Nat) (d : Dest) (l : Word) (v : VReg) : (s.put lat d l v).queues = s.queues := rfl
@[simp] theorem State.put_launches (s : State) (lat : Option Nat) (d : Dest) (l : Word) (v : VReg) : (s.put lat d l v).launches = s.launches := rfl
@[simp] theorem State.put_saved (s : State) (lat : Option Nat) (d : Dest) (l : Word) (v : VReg) : (s.put lat d l v).saved = s.saved := rfl
@[simp] theorem State.put_directory (s : State) (lat : Option Nat) (d : Dest) (l : Word) (v : VReg) : (s.put lat d l v).directory = s.directory := rfl
@[simp] theorem State.put_names (s : State) (lat : Option Nat) (d : Dest) (l : Word) (v : VReg) : (s.put lat d l v).names = s.names := rfl
@[simp] theorem State.put_sends (s : State) (lat : Option Nat) (d : Dest) (l : Word) (v : VReg) : (s.put lat d l v).sends = s.sends := rfl
@[simp] theorem State.put_bounces (s : State) (lat : Option Nat) (d : Dest) (l : Word) (v : VReg) : (s.put lat d l v).bounces = s.bounces := rfl
@[simp] theorem State.put_wtab (s : State) (lat : Option Nat) (d : Dest) (l : Word) (v : VReg) : (s.put lat d l v).wtab = s.wtab := rfl
@[simp] theorem State.put_hostq (s : State) (lat : Option Nat) (d : Dest) (l : Word) (v : VReg) : (s.put lat d l v).hostq = s.hostq := rfl
@[simp] theorem State.put_ops (s : State) (lat : Option Nat) (d : Dest) (l : Word) (v : VReg) : (s.put lat d l v).ops = s.ops := rfl
@[simp] theorem State.put_streams (s : State) (lat : Option Nat) (d : Dest) (l : Word) (v : VReg) : (s.put lat d l v).streams = s.streams := rfl
@[simp] theorem State.put_sops (s : State) (lat : Option Nat) (d : Dest) (l : Word) (v : VReg) : (s.put lat d l v).sops = s.sops := rfl
@[simp] theorem State.put_fu (s : State) (lat : Option Nat) (d : Dest) (l : Word) (v : VReg) : (s.put lat d l v).fu = s.fu := rfl
@[simp] theorem State.put_fab (s : State) (lat : Option Nat) (d : Dest) (l : Word) (v : VReg) : (s.put lat d l v).fab = s.fab := rfl
@[simp] theorem State.put_ck (s : State) (lat : Option Nat) (d : Dest) (l : Word) (v : VReg) : (s.put lat d l v).ck = s.ck := rfl
@[simp] theorem State.put_tlb (s : State) (lat : Option Nat) (d : Dest) (l : Word) (v : VReg) : (s.put lat d l v).tlb = s.tlb := rfl

/-! ## `put2` -/

@[simp] theorem State.put2_clock (s : State) (lat : Option Nat) (d e : Dest) (l : Word) (v w : VReg) : (s.put2 lat d e l v w).clock = s.clock := rfl
@[simp] theorem State.put2_time19 (s : State) (lat : Option Nat) (d e : Dest) (l : Word) (v w : VReg) : (s.put2 lat d e l v w).time19 = s.time19 := rfl
@[simp] theorem State.put2_wall (s : State) (lat : Option Nat) (d e : Dest) (l : Word) (v w : VReg) : (s.put2 lat d e l v w).wall = s.wall := rfl
@[simp] theorem State.put2_unitsPerCycle (s : State) (lat : Option Nat) (d e : Dest) (l : Word) (v w : VReg) : (s.put2 lat d e l v w).unitsPerCycle = s.unitsPerCycle := rfl
@[simp] theorem State.put2_tick (s : State) (lat : Option Nat) (d e : Dest) (l : Word) (v w : VReg) : (s.put2 lat d e l v w).tick = s.tick := rfl
@[simp] theorem State.put2_nextId (s : State) (lat : Option Nat) (d e : Dest) (l : Word) (v w : VReg) : (s.put2 lat d e l v w).nextId = s.nextId + 1 := rfl
@[simp] theorem State.put2_inputs (s : State) (lat : Option Nat) (d e : Dest) (l : Word) (v w : VReg) : (s.put2 lat d e l v w).inputs = s.inputs := rfl
@[simp] theorem State.put2_active (s : State) (lat : Option Nat) (d e : Dest) (l : Word) (v w : VReg) : (s.put2 lat d e l v w).active = s.active := rfl
@[simp] theorem State.put2_issue (s : State) (lat : Option Nat) (d e : Dest) (l : Word) (v w : VReg) : (s.put2 lat d e l v w).issue = s.issue := rfl
@[simp] theorem State.put2_blk (s : State) (lat : Option Nat) (d e : Dest) (l : Word) (v w : VReg) : (s.put2 lat d e l v w).blk = s.blk := rfl
@[simp] theorem State.put2_core (s : State) (lat : Option Nat) (d e : Dest) (l : Word) (v w : VReg) : (s.put2 lat d e l v w).core = s.core := rfl
@[simp] theorem State.put2_ctx (s : State) (lat : Option Nat) (d e : Dest) (l : Word) (v w : VReg) : (s.put2 lat d e l v w).ctx = s.ctx := rfl
@[simp] theorem State.put2_warps (s : State) (lat : Option Nat) (d e : Dest) (l : Word) (v w : VReg) : (s.put2 lat d e l v w).warps = s.warps := rfl
@[simp] theorem State.put2_blks (s : State) (lat : Option Nat) (d e : Dest) (l : Word) (v w : VReg) : (s.put2 lat d e l v w).blks = s.blks := rfl
@[simp] theorem State.put2_cores (s : State) (lat : Option Nat) (d e : Dest) (l : Word) (v w : VReg) : (s.put2 lat d e l v w).cores = s.cores := rfl
@[simp] theorem State.put2_ctxs (s : State) (lat : Option Nat) (d e : Dest) (l : Word) (v w : VReg) : (s.put2 lat d e l v w).ctxs = s.ctxs := rfl
@[simp] theorem State.put2_cbars (s : State) (lat : Option Nat) (d e : Dest) (l : Word) (v w : VReg) : (s.put2 lat d e l v w).cbars = s.cbars := rfl
@[simp] theorem State.put2_mem (s : State) (lat : Option Nat) (d e : Dest) (l : Word) (v w : VReg) : (s.put2 lat d e l v w).mem = s.mem := rfl
@[simp] theorem State.put2_fwmem (s : State) (lat : Option Nat) (d e : Dest) (l : Word) (v w : VReg) : (s.put2 lat d e l v w).fwmem = s.fwmem := rfl
@[simp] theorem State.put2_poison (s : State) (lat : Option Nat) (d e : Dest) (l : Word) (v w : VReg) : (s.put2 lat d e l v w).poison = s.poison := rfl
@[simp] theorem State.put2_lineKey (s : State) (lat : Option Nat) (d e : Dest) (l : Word) (v w : VReg) : (s.put2 lat d e l v w).lineKey = s.lineKey := rfl
@[simp] theorem State.put2_cellar (s : State) (lat : Option Nat) (d e : Dest) (l : Word) (v w : VReg) : (s.put2 lat d e l v w).cellar = s.cellar := rfl
@[simp] theorem State.put2_clines (s : State) (lat : Option Nat) (d e : Dest) (l : Word) (v w : VReg) : (s.put2 lat d e l v w).clines = s.clines := rfl
@[simp] theorem State.put2_queues (s : State) (lat : Option Nat) (d e : Dest) (l : Word) (v w : VReg) : (s.put2 lat d e l v w).queues = s.queues := rfl
@[simp] theorem State.put2_launches (s : State) (lat : Option Nat) (d e : Dest) (l : Word) (v w : VReg) : (s.put2 lat d e l v w).launches = s.launches := rfl
@[simp] theorem State.put2_saved (s : State) (lat : Option Nat) (d e : Dest) (l : Word) (v w : VReg) : (s.put2 lat d e l v w).saved = s.saved := rfl
@[simp] theorem State.put2_directory (s : State) (lat : Option Nat) (d e : Dest) (l : Word) (v w : VReg) : (s.put2 lat d e l v w).directory = s.directory := rfl
@[simp] theorem State.put2_names (s : State) (lat : Option Nat) (d e : Dest) (l : Word) (v w : VReg) : (s.put2 lat d e l v w).names = s.names := rfl
@[simp] theorem State.put2_sends (s : State) (lat : Option Nat) (d e : Dest) (l : Word) (v w : VReg) : (s.put2 lat d e l v w).sends = s.sends := rfl
@[simp] theorem State.put2_bounces (s : State) (lat : Option Nat) (d e : Dest) (l : Word) (v w : VReg) : (s.put2 lat d e l v w).bounces = s.bounces := rfl
@[simp] theorem State.put2_wtab (s : State) (lat : Option Nat) (d e : Dest) (l : Word) (v w : VReg) : (s.put2 lat d e l v w).wtab = s.wtab := rfl
@[simp] theorem State.put2_hostq (s : State) (lat : Option Nat) (d e : Dest) (l : Word) (v w : VReg) : (s.put2 lat d e l v w).hostq = s.hostq := rfl
@[simp] theorem State.put2_ops (s : State) (lat : Option Nat) (d e : Dest) (l : Word) (v w : VReg) : (s.put2 lat d e l v w).ops = s.ops := rfl
@[simp] theorem State.put2_streams (s : State) (lat : Option Nat) (d e : Dest) (l : Word) (v w : VReg) : (s.put2 lat d e l v w).streams = s.streams := rfl
@[simp] theorem State.put2_sops (s : State) (lat : Option Nat) (d e : Dest) (l : Word) (v w : VReg) : (s.put2 lat d e l v w).sops = s.sops := rfl
@[simp] theorem State.put2_fu (s : State) (lat : Option Nat) (d e : Dest) (l : Word) (v w : VReg) : (s.put2 lat d e l v w).fu = s.fu := rfl
@[simp] theorem State.put2_fab (s : State) (lat : Option Nat) (d e : Dest) (l : Word) (v w : VReg) : (s.put2 lat d e l v w).fab = s.fab := rfl
@[simp] theorem State.put2_ck (s : State) (lat : Option Nat) (d e : Dest) (l : Word) (v w : VReg) : (s.put2 lat d e l v w).ck = s.ck := rfl
@[simp] theorem State.put2_tlb (s : State) (lat : Option Nat) (d e : Dest) (l : Word) (v w : VReg) : (s.put2 lat d e l v w).tlb = s.tlb := rfl

/-! ## `endIssue` -/

@[simp] theorem State.endIssue_clock (s : State) (e : Ended) : (s.endIssue e).clock = s.clock := rfl
@[simp] theorem State.endIssue_time19 (s : State) (e : Ended) : (s.endIssue e).time19 = s.time19 := rfl
@[simp] theorem State.endIssue_wall (s : State) (e : Ended) : (s.endIssue e).wall = s.wall := rfl
@[simp] theorem State.endIssue_unitsPerCycle (s : State) (e : Ended) : (s.endIssue e).unitsPerCycle = s.unitsPerCycle := rfl
@[simp] theorem State.endIssue_tick (s : State) (e : Ended) : (s.endIssue e).tick = s.tick := rfl
@[simp] theorem State.endIssue_nextId (s : State) (e : Ended) : (s.endIssue e).nextId = s.nextId := rfl
@[simp] theorem State.endIssue_inputs (s : State) (e : Ended) : (s.endIssue e).inputs = s.inputs := rfl
@[simp] theorem State.endIssue_active (s : State) (e : Ended) : (s.endIssue e).active = s.active := rfl
@[simp] theorem State.endIssue_issue (s : State) (e : Ended) : (s.endIssue e).issue = { s.issue with ended := some e, pfx := none } := rfl
@[simp] theorem State.endIssue_warp (s : State) (e : Ended) : (s.endIssue e).warp = s.warp := rfl
@[simp] theorem State.endIssue_blk (s : State) (e : Ended) : (s.endIssue e).blk = s.blk := rfl
@[simp] theorem State.endIssue_core (s : State) (e : Ended) : (s.endIssue e).core = s.core := rfl
@[simp] theorem State.endIssue_ctx (s : State) (e : Ended) : (s.endIssue e).ctx = s.ctx := rfl
@[simp] theorem State.endIssue_warps (s : State) (e : Ended) : (s.endIssue e).warps = s.warps := rfl
@[simp] theorem State.endIssue_blks (s : State) (e : Ended) : (s.endIssue e).blks = s.blks := rfl
@[simp] theorem State.endIssue_cores (s : State) (e : Ended) : (s.endIssue e).cores = s.cores := rfl
@[simp] theorem State.endIssue_ctxs (s : State) (e : Ended) : (s.endIssue e).ctxs = s.ctxs := rfl
@[simp] theorem State.endIssue_cbars (s : State) (e : Ended) : (s.endIssue e).cbars = s.cbars := rfl
@[simp] theorem State.endIssue_mem (s : State) (e : Ended) : (s.endIssue e).mem = s.mem := rfl
@[simp] theorem State.endIssue_fwmem (s : State) (e : Ended) : (s.endIssue e).fwmem = s.fwmem := rfl
@[simp] theorem State.endIssue_poison (s : State) (e : Ended) : (s.endIssue e).poison = s.poison := rfl
@[simp] theorem State.endIssue_lineKey (s : State) (e : Ended) : (s.endIssue e).lineKey = s.lineKey := rfl
@[simp] theorem State.endIssue_cellar (s : State) (e : Ended) : (s.endIssue e).cellar = s.cellar := rfl
@[simp] theorem State.endIssue_clines (s : State) (e : Ended) : (s.endIssue e).clines = s.clines := rfl
@[simp] theorem State.endIssue_queues (s : State) (e : Ended) : (s.endIssue e).queues = s.queues := rfl
@[simp] theorem State.endIssue_launches (s : State) (e : Ended) : (s.endIssue e).launches = s.launches := rfl
@[simp] theorem State.endIssue_saved (s : State) (e : Ended) : (s.endIssue e).saved = s.saved := rfl
@[simp] theorem State.endIssue_directory (s : State) (e : Ended) : (s.endIssue e).directory = s.directory := rfl
@[simp] theorem State.endIssue_names (s : State) (e : Ended) : (s.endIssue e).names = s.names := rfl
@[simp] theorem State.endIssue_sends (s : State) (e : Ended) : (s.endIssue e).sends = s.sends := rfl
@[simp] theorem State.endIssue_bounces (s : State) (e : Ended) : (s.endIssue e).bounces = s.bounces := rfl
@[simp] theorem State.endIssue_wtab (s : State) (e : Ended) : (s.endIssue e).wtab = s.wtab := rfl
@[simp] theorem State.endIssue_hostq (s : State) (e : Ended) : (s.endIssue e).hostq = s.hostq := rfl
@[simp] theorem State.endIssue_ops (s : State) (e : Ended) : (s.endIssue e).ops = s.ops := rfl
@[simp] theorem State.endIssue_streams (s : State) (e : Ended) : (s.endIssue e).streams = s.streams := rfl
@[simp] theorem State.endIssue_sops (s : State) (e : Ended) : (s.endIssue e).sops = s.sops := rfl
@[simp] theorem State.endIssue_fu (s : State) (e : Ended) : (s.endIssue e).fu = s.fu := rfl
@[simp] theorem State.endIssue_fab (s : State) (e : Ended) : (s.endIssue e).fab = s.fab := rfl
@[simp] theorem State.endIssue_ck (s : State) (e : Ended) : (s.endIssue e).ck = s.ck := rfl
@[simp] theorem State.endIssue_tlb (s : State) (e : Ended) : (s.endIssue e).tlb = s.tlb := rfl

/-! ## `setSeq` -/

@[simp] theorem State.setSeq_clock (s : State) (q : Seq) : (s.setSeq q).clock = s.clock := rfl
@[simp] theorem State.setSeq_time19 (s : State) (q : Seq) : (s.setSeq q).time19 = s.time19 := rfl
@[simp] theorem State.setSeq_wall (s : State) (q : Seq) : (s.setSeq q).wall = s.wall := rfl
@[simp] theorem State.setSeq_unitsPerCycle (s : State) (q : Seq) : (s.setSeq q).unitsPerCycle = s.unitsPerCycle := rfl
@[simp] theorem State.setSeq_tick (s : State) (q : Seq) : (s.setSeq q).tick = s.tick := rfl
@[simp] theorem State.setSeq_nextId (s : State) (q : Seq) : (s.setSeq q).nextId = s.nextId := rfl
@[simp] theorem State.setSeq_inputs (s : State) (q : Seq) : (s.setSeq q).inputs = s.inputs := rfl
@[simp] theorem State.setSeq_active (s : State) (q : Seq) : (s.setSeq q).active = s.active := rfl
@[simp] theorem State.setSeq_issue (s : State) (q : Seq) : (s.setSeq q).issue = s.issue := rfl
@[simp] theorem State.setSeq_warp (s : State) (q : Seq) : (s.setSeq q).warp = s.warp := rfl
@[simp] theorem State.setSeq_blk (s : State) (q : Seq) : (s.setSeq q).blk = { s.blk with seq := q } := rfl
@[simp] theorem State.setSeq_core (s : State) (q : Seq) : (s.setSeq q).core = s.core := rfl
@[simp] theorem State.setSeq_ctx (s : State) (q : Seq) : (s.setSeq q).ctx = s.ctx := rfl
@[simp] theorem State.setSeq_warps (s : State) (q : Seq) : (s.setSeq q).warps = s.warps := rfl
@[simp] theorem State.setSeq_blks (s : State) (q : Seq) : (s.setSeq q).blks = s.blks := rfl
@[simp] theorem State.setSeq_cores (s : State) (q : Seq) : (s.setSeq q).cores = s.cores := rfl
@[simp] theorem State.setSeq_ctxs (s : State) (q : Seq) : (s.setSeq q).ctxs = s.ctxs := rfl
@[simp] theorem State.setSeq_cbars (s : State) (q : Seq) : (s.setSeq q).cbars = s.cbars := rfl
@[simp] theorem State.setSeq_mem (s : State) (q : Seq) : (s.setSeq q).mem = s.mem := rfl
@[simp] theorem State.setSeq_fwmem (s : State) (q : Seq) : (s.setSeq q).fwmem = s.fwmem := rfl
@[simp] theorem State.setSeq_poison (s : State) (q : Seq) : (s.setSeq q).poison = s.poison := rfl
@[simp] theorem State.setSeq_lineKey (s : State) (q : Seq) : (s.setSeq q).lineKey = s.lineKey := rfl
@[simp] theorem State.setSeq_cellar (s : State) (q : Seq) : (s.setSeq q).cellar = s.cellar := rfl
@[simp] theorem State.setSeq_clines (s : State) (q : Seq) : (s.setSeq q).clines = s.clines := rfl
@[simp] theorem State.setSeq_queues (s : State) (q : Seq) : (s.setSeq q).queues = s.queues := rfl
@[simp] theorem State.setSeq_launches (s : State) (q : Seq) : (s.setSeq q).launches = s.launches := rfl
@[simp] theorem State.setSeq_saved (s : State) (q : Seq) : (s.setSeq q).saved = s.saved := rfl
@[simp] theorem State.setSeq_directory (s : State) (q : Seq) : (s.setSeq q).directory = s.directory := rfl
@[simp] theorem State.setSeq_names (s : State) (q : Seq) : (s.setSeq q).names = s.names := rfl
@[simp] theorem State.setSeq_sends (s : State) (q : Seq) : (s.setSeq q).sends = s.sends := rfl
@[simp] theorem State.setSeq_bounces (s : State) (q : Seq) : (s.setSeq q).bounces = s.bounces := rfl
@[simp] theorem State.setSeq_wtab (s : State) (q : Seq) : (s.setSeq q).wtab = s.wtab := rfl
@[simp] theorem State.setSeq_hostq (s : State) (q : Seq) : (s.setSeq q).hostq = s.hostq := rfl
@[simp] theorem State.setSeq_ops (s : State) (q : Seq) : (s.setSeq q).ops = s.ops := rfl
@[simp] theorem State.setSeq_streams (s : State) (q : Seq) : (s.setSeq q).streams = s.streams := rfl
@[simp] theorem State.setSeq_sops (s : State) (q : Seq) : (s.setSeq q).sops = s.sops := rfl
@[simp] theorem State.setSeq_fu (s : State) (q : Seq) : (s.setSeq q).fu = s.fu := rfl
@[simp] theorem State.setSeq_fab (s : State) (q : Seq) : (s.setSeq q).fab = s.fab := rfl
@[simp] theorem State.setSeq_ck (s : State) (q : Seq) : (s.setSeq q).ck = s.ck := rfl
@[simp] theorem State.setSeq_tlb (s : State) (q : Seq) : (s.setSeq q).tlb = s.tlb := rfl

/-! ## `setEntry` -/

@[simp] theorem State.setEntry_clock (s : State) (e : NameEntry) : (s.setEntry e).clock = s.clock := rfl
@[simp] theorem State.setEntry_time19 (s : State) (e : NameEntry) : (s.setEntry e).time19 = s.time19 := rfl
@[simp] theorem State.setEntry_wall (s : State) (e : NameEntry) : (s.setEntry e).wall = s.wall := rfl
@[simp] theorem State.setEntry_unitsPerCycle (s : State) (e : NameEntry) : (s.setEntry e).unitsPerCycle = s.unitsPerCycle := rfl
@[simp] theorem State.setEntry_tick (s : State) (e : NameEntry) : (s.setEntry e).tick = s.tick := rfl
@[simp] theorem State.setEntry_nextId (s : State) (e : NameEntry) : (s.setEntry e).nextId = s.nextId := rfl
@[simp] theorem State.setEntry_inputs (s : State) (e : NameEntry) : (s.setEntry e).inputs = s.inputs := rfl
@[simp] theorem State.setEntry_active (s : State) (e : NameEntry) : (s.setEntry e).active = s.active := rfl
@[simp] theorem State.setEntry_issue (s : State) (e : NameEntry) : (s.setEntry e).issue = s.issue := rfl
@[simp] theorem State.setEntry_warp (s : State) (e : NameEntry) : (s.setEntry e).warp = s.warp := rfl
@[simp] theorem State.setEntry_blk (s : State) (e : NameEntry) : (s.setEntry e).blk = s.blk := rfl
@[simp] theorem State.setEntry_core (s : State) (e : NameEntry) : (s.setEntry e).core = s.core := rfl
@[simp] theorem State.setEntry_ctx (s : State) (e : NameEntry) : (s.setEntry e).ctx = s.ctx := rfl
@[simp] theorem State.setEntry_warps (s : State) (e : NameEntry) : (s.setEntry e).warps = s.warps := rfl
@[simp] theorem State.setEntry_blks (s : State) (e : NameEntry) : (s.setEntry e).blks = s.blks := rfl
@[simp] theorem State.setEntry_cores (s : State) (e : NameEntry) : (s.setEntry e).cores = s.cores := rfl
@[simp] theorem State.setEntry_ctxs (s : State) (e : NameEntry) : (s.setEntry e).ctxs = s.ctxs := rfl
@[simp] theorem State.setEntry_cbars (s : State) (e : NameEntry) : (s.setEntry e).cbars = s.cbars := rfl
@[simp] theorem State.setEntry_mem (s : State) (e : NameEntry) : (s.setEntry e).mem = s.mem := rfl
@[simp] theorem State.setEntry_fwmem (s : State) (e : NameEntry) : (s.setEntry e).fwmem = s.fwmem := rfl
@[simp] theorem State.setEntry_poison (s : State) (e : NameEntry) : (s.setEntry e).poison = s.poison := rfl
@[simp] theorem State.setEntry_lineKey (s : State) (e : NameEntry) : (s.setEntry e).lineKey = s.lineKey := rfl
@[simp] theorem State.setEntry_cellar (s : State) (e : NameEntry) : (s.setEntry e).cellar = s.cellar := rfl
@[simp] theorem State.setEntry_clines (s : State) (e : NameEntry) : (s.setEntry e).clines = s.clines := rfl
@[simp] theorem State.setEntry_queues (s : State) (e : NameEntry) : (s.setEntry e).queues = s.queues := rfl
@[simp] theorem State.setEntry_launches (s : State) (e : NameEntry) : (s.setEntry e).launches = s.launches := rfl
@[simp] theorem State.setEntry_saved (s : State) (e : NameEntry) : (s.setEntry e).saved = s.saved := rfl
@[simp] theorem State.setEntry_directory (s : State) (e : NameEntry) : (s.setEntry e).directory = s.directory := rfl
@[simp] theorem State.setEntry_names (s : State) (e : NameEntry) : (s.setEntry e).names = e :: s.names.filter fun x => x.name != e.name := rfl
@[simp] theorem State.setEntry_sends (s : State) (e : NameEntry) : (s.setEntry e).sends = s.sends := rfl
@[simp] theorem State.setEntry_bounces (s : State) (e : NameEntry) : (s.setEntry e).bounces = s.bounces := rfl
@[simp] theorem State.setEntry_wtab (s : State) (e : NameEntry) : (s.setEntry e).wtab = s.wtab := rfl
@[simp] theorem State.setEntry_hostq (s : State) (e : NameEntry) : (s.setEntry e).hostq = s.hostq := rfl
@[simp] theorem State.setEntry_ops (s : State) (e : NameEntry) : (s.setEntry e).ops = s.ops := rfl
@[simp] theorem State.setEntry_streams (s : State) (e : NameEntry) : (s.setEntry e).streams = s.streams := rfl
@[simp] theorem State.setEntry_sops (s : State) (e : NameEntry) : (s.setEntry e).sops = s.sops := rfl
@[simp] theorem State.setEntry_fu (s : State) (e : NameEntry) : (s.setEntry e).fu = s.fu := rfl
@[simp] theorem State.setEntry_fab (s : State) (e : NameEntry) : (s.setEntry e).fab = s.fab := rfl
@[simp] theorem State.setEntry_ck (s : State) (e : NameEntry) : (s.setEntry e).ck = s.ck := rfl
@[simp] theorem State.setEntry_tlb (s : State) (e : NameEntry) : (s.setEntry e).tlb = s.tlb := rfl

/-! ## `onOp` -/

@[simp] theorem State.onOp_clock (s : State) (id : Nat) (f : EngOp → EngOp) : (s.onOp id f).clock = s.clock := rfl
@[simp] theorem State.onOp_time19 (s : State) (id : Nat) (f : EngOp → EngOp) : (s.onOp id f).time19 = s.time19 := rfl
@[simp] theorem State.onOp_wall (s : State) (id : Nat) (f : EngOp → EngOp) : (s.onOp id f).wall = s.wall := rfl
@[simp] theorem State.onOp_unitsPerCycle (s : State) (id : Nat) (f : EngOp → EngOp) : (s.onOp id f).unitsPerCycle = s.unitsPerCycle := rfl
@[simp] theorem State.onOp_tick (s : State) (id : Nat) (f : EngOp → EngOp) : (s.onOp id f).tick = s.tick := rfl
@[simp] theorem State.onOp_nextId (s : State) (id : Nat) (f : EngOp → EngOp) : (s.onOp id f).nextId = s.nextId := rfl
@[simp] theorem State.onOp_inputs (s : State) (id : Nat) (f : EngOp → EngOp) : (s.onOp id f).inputs = s.inputs := rfl
@[simp] theorem State.onOp_active (s : State) (id : Nat) (f : EngOp → EngOp) : (s.onOp id f).active = s.active := rfl
@[simp] theorem State.onOp_issue (s : State) (id : Nat) (f : EngOp → EngOp) : (s.onOp id f).issue = s.issue := rfl
@[simp] theorem State.onOp_warp (s : State) (id : Nat) (f : EngOp → EngOp) : (s.onOp id f).warp = s.warp := rfl
@[simp] theorem State.onOp_blk (s : State) (id : Nat) (f : EngOp → EngOp) : (s.onOp id f).blk = s.blk := rfl
@[simp] theorem State.onOp_core (s : State) (id : Nat) (f : EngOp → EngOp) : (s.onOp id f).core = s.core := rfl
@[simp] theorem State.onOp_ctx (s : State) (id : Nat) (f : EngOp → EngOp) : (s.onOp id f).ctx = s.ctx := rfl
@[simp] theorem State.onOp_warps (s : State) (id : Nat) (f : EngOp → EngOp) : (s.onOp id f).warps = s.warps := rfl
@[simp] theorem State.onOp_blks (s : State) (id : Nat) (f : EngOp → EngOp) : (s.onOp id f).blks = s.blks := rfl
@[simp] theorem State.onOp_cores (s : State) (id : Nat) (f : EngOp → EngOp) : (s.onOp id f).cores = s.cores := rfl
@[simp] theorem State.onOp_ctxs (s : State) (id : Nat) (f : EngOp → EngOp) : (s.onOp id f).ctxs = s.ctxs := rfl
@[simp] theorem State.onOp_cbars (s : State) (id : Nat) (f : EngOp → EngOp) : (s.onOp id f).cbars = s.cbars := rfl
@[simp] theorem State.onOp_mem (s : State) (id : Nat) (f : EngOp → EngOp) : (s.onOp id f).mem = s.mem := rfl
@[simp] theorem State.onOp_fwmem (s : State) (id : Nat) (f : EngOp → EngOp) : (s.onOp id f).fwmem = s.fwmem := rfl
@[simp] theorem State.onOp_poison (s : State) (id : Nat) (f : EngOp → EngOp) : (s.onOp id f).poison = s.poison := rfl
@[simp] theorem State.onOp_lineKey (s : State) (id : Nat) (f : EngOp → EngOp) : (s.onOp id f).lineKey = s.lineKey := rfl
@[simp] theorem State.onOp_cellar (s : State) (id : Nat) (f : EngOp → EngOp) : (s.onOp id f).cellar = s.cellar := rfl
@[simp] theorem State.onOp_clines (s : State) (id : Nat) (f : EngOp → EngOp) : (s.onOp id f).clines = s.clines := rfl
@[simp] theorem State.onOp_queues (s : State) (id : Nat) (f : EngOp → EngOp) : (s.onOp id f).queues = s.queues := rfl
@[simp] theorem State.onOp_launches (s : State) (id : Nat) (f : EngOp → EngOp) : (s.onOp id f).launches = s.launches := rfl
@[simp] theorem State.onOp_saved (s : State) (id : Nat) (f : EngOp → EngOp) : (s.onOp id f).saved = s.saved := rfl
@[simp] theorem State.onOp_directory (s : State) (id : Nat) (f : EngOp → EngOp) : (s.onOp id f).directory = s.directory := rfl
@[simp] theorem State.onOp_names (s : State) (id : Nat) (f : EngOp → EngOp) : (s.onOp id f).names = s.names := rfl
@[simp] theorem State.onOp_sends (s : State) (id : Nat) (f : EngOp → EngOp) : (s.onOp id f).sends = s.sends := rfl
@[simp] theorem State.onOp_bounces (s : State) (id : Nat) (f : EngOp → EngOp) : (s.onOp id f).bounces = s.bounces := rfl
@[simp] theorem State.onOp_wtab (s : State) (id : Nat) (f : EngOp → EngOp) : (s.onOp id f).wtab = s.wtab := rfl
@[simp] theorem State.onOp_hostq (s : State) (id : Nat) (f : EngOp → EngOp) : (s.onOp id f).hostq = s.hostq := rfl
@[simp] theorem State.onOp_ops (s : State) (id : Nat) (f : EngOp → EngOp) : (s.onOp id f).ops = s.ops.map fun o => if o.id = id then f o else o := rfl
@[simp] theorem State.onOp_streams (s : State) (id : Nat) (f : EngOp → EngOp) : (s.onOp id f).streams = s.streams := rfl
@[simp] theorem State.onOp_sops (s : State) (id : Nat) (f : EngOp → EngOp) : (s.onOp id f).sops = s.sops := rfl
@[simp] theorem State.onOp_fu (s : State) (id : Nat) (f : EngOp → EngOp) : (s.onOp id f).fu = s.fu := rfl
@[simp] theorem State.onOp_fab (s : State) (id : Nat) (f : EngOp → EngOp) : (s.onOp id f).fab = s.fab := rfl
@[simp] theorem State.onOp_ck (s : State) (id : Nat) (f : EngOp → EngOp) : (s.onOp id f).ck = s.ck := rfl
@[simp] theorem State.onOp_tlb (s : State) (id : Nat) (f : EngOp → EngOp) : (s.onOp id f).tlb = s.tlb := rfl

end Sys2Proof.Machine
end

