-- ==== Sys2Proof/Tests/Slice0.lean ====
section
/-!
SUPPORT. Tests of the model: words written out from the encodings of 03_encoding.md and the chapters, ill-formed terms, one
step of the words, and for each statement concrete states and operands that meet its hypotheses.
-/
set_option maxRecDepth 20000

namespace Sys2Proof.Machine

/-! ## Helpers -/

/-- A state with lanes `m` active, and with a register, a level or a prefix set. -/
def State.lanes (s : State) (m : Word) : State := s.setSplit { s.split with mask := m }
def State.sreg (s : State) (n : Nat) (v : Word) : State := { s with warp := { s.warp with sregs := s.warp.sregs.setIfInBounds n v } }
def State.vreg (s : State) (n : Nat) (v : Word) : State := { s with warp := { s.warp with vfix := s.warp.vfix.setIfInBounds n (splat v) } }
def State.ramp (s : State) (n k : Nat) : State :=
  { s with warp := { s.warp with vfix := s.warp.vfix.setIfInBounds n (Vector.ofFn fun l => BitVec.ofNat 32 (k * l.val)) } }
def State.lev (s : State) (l : Level) : State := { s with warp := { s.warp with level := l } }
def State.pre (s : State) (p : Pfx) : State := { s with issue := { s.issue with pfx := some p } }

end Sys2Proof.Machine

namespace Sys2Proof.Tests
open Sys2Proof.Machine

/-- What a step or a word answers, looked at by `f`; a stop answers false. -/
def after (o : Host.Outcome State Fault Refusal) (f : State → Bool) : Bool :=
  match o with
  | .next t => f t
  | _ => false

/-- The machine of `withFetchWord` at a word, with its warp loaded. -/
def at_ (w : Nat) : State :=
  { (State.reset.withFetchWord 32 w).load ⟨0, 0, 0⟩ 0 0 0 with issue := { Issue.none with pkt := 0x3000, next := 1 } }

/-- The warp's registers once every result in flight is written. -/
def fin (t : State) : Warp := t.warp.settleAll
def u (t : State) (n : Nat) : Word := (fin t).readU n
def v (t : State) (n l : Nat) : Word := (((fin t).readV n)[l]?).getD 0

/-! ## Decoding

Each word is written out from its encoding; the tables of worked words of the spec's chapters give most of them. -/

/-- R46, R55 (03_encoding.md). -/
theorem test_decode_packet : decodeWord 0x8F140000#32 = .ok (.pfx 2 1 0 0 0 0) ∧ headerOf 0x8F140000#32 = ⟨true, 0⟩ ∧
    decodeWord 0x84545405#32 = .ok (.vaddi 20 21 5) ∧ decodeWord 0xB083000C#32 = .ok (.saddi 6 12) ∧ headerOf 0xB083000C#32 = ⟨true, 3⟩ := by and_intros <;> rfl

/-- R77, R78, R75, R79: the uniform majors. -/
theorem test_decode_uniform : decodeWord 0x00C52468#32 = .ok (.smovi 10 0x2468) ∧ decodeWord 0x01055678#32 = .ok (.smovh 10 0x5678) ∧
    decodeWord 0x015B2C60#32 = .ok (.scmp 3 6 44 48 0) ∧ decodeWord 0x00471F3C#32 = .ok (.ssel 14 31 0 4) ∧
    decodeWord 0x01940A80#32 = .ok (.srdD 40 0x0A) := by and_intros <;> rfl

/-- R86, R93, R101, R104: the vector majors. -/
theorem test_decode_vector : decodeWord 0x04D85166#32 = .ok (.vacsH2 24 20 22) ∧ decodeWord 0x8F02BC00#32 = .ok (.pfx 0 0 5 30 0 0) ∧
    decodeWord 0x071454C0#32 = .ok (.vcvt 20 21 3 0 0) ∧ decodeWord 0x081F81E0#32 = .ok (.vshflIdx 31 32 30) ∧
    decodeWord 0x08DE5150#32 = .ok (.vrdl 30 20 42) := by and_intros <;> rfl

/-- R108 to R125: the memory majors. -/
theorem test_decode_memory : decodeWord 0x09181286#32 = .ok (.vld 24 4 2 2 0 6) ∧ decodeWord 0x09AC0006#32 = .ok (.sld 44 0 0 0 0 6) ∧
    decodeWord 0x098A20D1#32 = .ok (.sld 10 8 0 3 1 1) ∧ decodeWord 0x09DE1880#32 = .ok (.sst 30 6 0 2 0 0) ∧
    decodeWord 0x0A111082#32 = .ok (.vgld 17 4 0 2 0 2) ∧ decodeWord 0x8F002C00#32 = .ok (.pfx 0 0 0 22 0 0) ∧
    decodeWord 0x0A941010#32 = .ok (.vatom 20 4 0 0 4 0) ∧ decodeWord 0x0ADF5978#32 = .ok (.cfaddo 31 22 60) ∧
    decodeWord 0x8B50000A#32 = .ok (.accrd 16 0 5) := by and_intros <;> rfl

/-- R127 to R140: control flow. -/
theorem test_decode_flow : decodeWord 0x02000021#32 = .ok (.bra 0 33) ∧ decodeWord 0x02900005#32 = .ok (.call 2 5) ∧
    decodeWord 0x02C07100#32 = .ok (.calli 28 2) ∧ decodeWord 0x02C60002#32 = .ok (.leave 2) ∧ decodeWord 0x02C10000#32 = .ok .ret ∧
    decodeWord 0x02C20000#32 = .ok .exit ∧ decodeWord 0x02C30000#32 = .ok .region ∧ decodeWord 0x03026001#32 = .ok (.bsync 3 1) ∧
    decodeWord 0x03400000#32 = .ok (.waitc 0 0) := by and_intros <;> rfl

/-- R151 to R193: command words. -/
theorem test_decode_commands : decodeWord 0x0C060200#32 = .ok (.cpy 12 0 1 0) ∧ decodeWord 0x0C100800#32 = .ok (.cpyo 32) ∧
    decodeWord 0x0C4C0000#32 = .ok (.oclaim 24) ∧ decodeWord 0x0C840000#32 = .ok (.nsig 8 0) ∧ decodeWord 0x0C8C2000#32 = .ok (.njoin 24) ∧
    decodeWord 0x0C882800#32 = .ok (.nwait 16 0) ∧ decodeWord 0x0D0C1800#32 = .ok (.swin 24) ∧ decodeWord 0x0D0C0280#32 = .ok (.srec 24 20) ∧
    decodeWord 0x0D0C0800#32 = .ok (.swm 24) ∧ decodeWord 0x0E000007#32 = .ok (.trap 7) := by and_intros <;> rfl

/-- R195 to R203: firmware words. -/
theorem test_decode_firmware : decodeWord 0x0E400000#32 = .ok .rte ∧ decodeWord 0x0E410000#32 = .ok .hbcast ∧
    decodeWord 0x0E422818#32 = .ok (.drain 20 6) ∧ decodeWord 0x0E432CB2#32 = .ok (.wsnap 22 44 2) ∧ decodeWord 0x0E441000#32 = .ok (.accspl 4 0) ∧
    decodeWord 0x0E851100#32 = .ok (.psrd 10 0x11) ∧ decodeWord 0x0E870C01#32 = .ok (.pswr 0x0E 12) ∧
    decodeWord 0x0E892481#32 = .ok (.pswrD 0x12 36) := by and_intros <;> rfl

/-- R59, R167: matrix words (07_ref_engines_system.md, 18_program_timeslice.md). -/
theorem test_decode_matrix : decodeMatrix 0x0C000000#32 = .ok (.mzero 0 0) ∧ decodeMatrix 0x1C800003#32 = .ok (.mset 1 3) ∧
    decodeMatrix 0x18000000#32 = .ok (.mbarw 0) ∧ decodeMatrix 0x08000001#32 = .ok (.mmact 0 0 1) ∧ decodeMatrix 0x04000001#32 = .ok (.mmac 0 0 1) ∧
    decodeMatrix 0x14000001#32 = .ok (.mbara 1) ∧ decodeMatrix 0x20800000#32 = .ok (.mdec 1) ∧ decodeMatrix 0x24FFFFF0#32 = .ok (.mbnz 1 0x7FFFF0) ∧
    decodeMatrix 0x30000000#32 = .ok .mend := by and_intros <;> rfl

/-- R58, R60: words that no instruction owns. -/
theorem test_decode_refused : (decodeWord 0x0F000001#32).toOption = none ∧ (decodeWord 0x00200000#32).toOption = none ∧
    (decodeMatrix 0xFC000000#32).toOption = none ∧ (decodeMatrix 0x0C000001#32).toOption = none ∧ decodeTableWord 32 0x02C20000 = some .exit := by decide

/-! ## Ill-formed terms: one for each check of an instruction alone (R58, R60) -/

/-- Cause 3: an unassigned use, cause 4: a rounding mode and a condition code, cause 5: odd pairs, ranges. -/
theorem test_wf_codes : (Instr.pfx 0 0 6 0 0 0).wf = false ∧ (Instr.pfx 0 0 0 0 5 0).wf = false ∧ (Instr.scmp 1 12 0 0 0).wf = false ∧
    (Instr.srd 0 0x7F).wf = false ∧ (Instr.vfcmpPacked 0 0 0 0 0).wf = false ∧ (Instr.vatom 0 0 3 0 0 2).wf = false ∧ (Instr.pfx 0 0 5 0 4 0).wf = true := by decide
theorem test_wf_registers : (Instr.sadd 96 0 0).wf = false ∧ (Instr.sadd 1 0 1).wf = false ∧ (Instr.vld 1 0 0 3 0 0).wf = false ∧ (Instr.vld 0 48 0 2 0 0).wf = false ∧
    (Instr.vunpackI8 2 0).wf = false ∧ (Instr.cpy 98 0 0 0).wf = false ∧ (Instr.accspl 0 768).wf = false ∧ (Instr.sadd 94 2 1).wf = true := by decide
theorem test_wf_distances : (Instr.mjmp 2).wf = false ∧ (Instr.mbnz 0 1).wf = false ∧ (Instr.mbstAb 3).wf = false ∧ (Instr.mbstNab 2).wf = false ∧ (Instr.mjmp 4).wf = true := by decide
theorem test_wf_slide : (Instr.call 7 0).wf = false ∧ (Instr.calli 0 0).wf = false ∧ (Instr.calli 1 1).wf = false ∧ (Instr.call 6 0).wf = true := by decide

/-! ## One word, compute (expected values by hand from the rules cited) -/

/-- R75: a 32-bit sum wraps, and a pair carries into its high half. -/
theorem test_sadd : after (exec (.sadd 2 4 0) (((at_ 0).sreg 2 0xFFFFFFFF).sreg 4 2)) (fun t => u t 2 = 1 && u t 3 = 0) = true ∧
    after (exec (.sadd 2 4 1) (((at_ 0).sreg 2 0xFFFFFFFF).sreg 4 2)) (fun t => u t 2 = 1 && u t 3 = 1) = true := by decide
/-- R75: the high half of a signed product, (−1) × 2. -/
theorem test_smulh : after (exec (.smulhI32 2 4) (((at_ 0).sreg 2 0xFFFFFFFF).sreg 4 2)) (fun t => u t 2 = 0xFFFFFFFF) = true ∧
    after (exec (.smulhN32 2 4) (((at_ 0).sreg 2 0xFFFFFFFF).sreg 4 2)) (fun t => u t 2 = 1) = true := by decide
/-- R76: division by zero, and the most negative number by −1. -/
theorem test_sdiv : after (exec (.sdivI32 2 4) ((at_ 0).sreg 2 7)) (fun t => u t 2 = 0xFFFFFFFF) = true ∧
    after (exec (.sremI32 2 4) ((at_ 0).sreg 2 7)) (fun t => u t 2 = 7) = true ∧
    after (exec (.sdivI32 2 4) (((at_ 0).sreg 2 0x80000000).sreg 4 0xFFFFFFFF)) (fun t => u t 2 = 0x80000000) = true ∧
    after (exec (.sremI32 2 4) (((at_ 0).sreg 2 0xFFFFFFF9).sreg 4 2)) (fun t => u t 2 = 0xFFFFFFFF) = true := by decide
/-- R75: a shift by the width and more gives zeros, or sign bits. -/
theorem test_shifts : after (exec (.sshl 2 4 0) (((at_ 0).sreg 2 1).sreg 4 32)) (fun t => u t 2 = 0) = true ∧
    after (exec (.ssar 2 4 0) (((at_ 0).sreg 2 0x80000000).sreg 4 40)) (fun t => u t 2 = 0xFFFFFFFF) = true := by decide
/-- R74: bits 15 down to 8, sign-extended. -/
theorem test_sbfe : after (exec (.sbfe 2 4 0) (((at_ 0).sreg 2 0x0000F300).sreg 4 0x10808)) (fun t => u t 2 = 0xFFFFFFF3) = true := by decide
/-- R77 (05_ref_compute.md): `smovi` then `smovh`. -/
theorem test_smovh : after (exec (.smovh 10 0x5678) ((at_ 0).sreg 10 0x2468)) (fun t => u t 10 = 0x12345678) = true := by decide
/-- R78: signed below, unsigned above. -/
theorem test_scmp : after (exec (.scmp 3 2 4 5 0) (((at_ 0).sreg 4 0xFFFFFFFF).sreg 5 1)) (fun t => (fin t).readP 3) = true ∧
    after (exec (.scmp 3 6 4 5 0) (((at_ 0).sreg 4 0xFFFFFFFF).sreg 5 1)) (fun t => !(fin t).readP 3) = true := by decide
/-- R79: p1 and p2 by the table 0001 in the low bits, that is pa = pb = 0. -/
theorem test_plog : after (exec (.plog 4 1 2 1) (at_ 0)) (fun t => (fin t).readP 4) = true := by decide
/-- R71: lanes outside E keep their value, and with Z become zero. -/
theorem test_vadd_masks : after (exec (.vadd 1 2 3) (((((at_ 0).lanes 1).vreg 1 9).vreg 2 0xFFFFFFFF).vreg 3 6)) (fun t => v t 1 0 = 5 && v t 1 1 = 9) = true ∧
    after (exec (.vadd 1 2 3) ((((((at_ 0).lanes 1).pre ⟨0, 1, 0, 0, 0, 0⟩).vreg 1 9).vreg 2 0xFFFFFFFF).vreg 3 6)) (fun t => v t 1 0 = 5 && v t 1 1 = 0) = true := by decide
/-- R83: a compare gives 0 outside E. -/
theorem test_vcmp : after (exec (.vcmpLtI32 3 2 4) (((at_ 0).lanes 5).vreg 2 0xFFFFFFFF)) (fun t => (fin t).readM 0 3 = 5) = true := by decide
/-- R85: 0x7FFF + 1 saturates in the high half, and wraps without saturation. -/
theorem test_vadds_h2 : after (exec (.vaddsH2 1 2 3) (((at_ 0).vreg 2 0x7FFF0001).vreg 3 0x00010002)) (fun t => v t 1 0 = 0x7FFF0003) = true ∧
    after (exec (.vaddH2 1 2 3) (((at_ 0).vreg 2 0x7FFF0001).vreg 3 0x00010002)) (fun t => v t 1 0 = 0x80000003) = true := by decide
/-- R86 (05_ref_compute.md): the worked lane. -/
theorem test_vacs : after (exec (.vacsH2 2 4 5) ((((at_ 0).vreg 4 0xFFFB0064).vreg 5 0xFFFD0064).vreg 3 1)) (fun t => v t 2 0 = 0xFFFD0064 && v t 3 0 = 6) = true := by decide
/-- R88: signed 4 × (−1 × 2) + 10, and unsigned by signed. -/
theorem test_vdot4 : after (exec (.vdot4 1 2 3 1 1 0) ((((at_ 0).vreg 1 10).vreg 2 0xFFFFFFFF).vreg 3 0x02020202)) (fun t => v t 1 31 = 2) = true := by decide
/-- R84: saturating narrowing of 40000 and −40000. -/
theorem test_vpack : after (exec (.vpackH2 1 2 4) ((((at_ 0).vreg 2 40000).vreg 3 0xFFFF63C0).sreg 4 1)) (fun t => v t 1 0 = 0x80007FFF) = true := by decide
/-- R89, R73: 1 + 2⁻²⁴ is a tie and goes to the even 1; towards +∞ it is the next number. -/
theorem test_vfadd : after (exec (.vfaddF32 1 2 3) (((at_ 0).vreg 2 0x3F800000).vreg 3 0x33800000)) (fun t => v t 1 0 = 0x3F800000) = true ∧
    after (exec (.vfaddF32 1 2 3) ((((at_ 0).pre ⟨0, 0, 2, 0, 0, 0⟩).vreg 2 0x3F800000).vreg 3 0x33800000)) (fun t => v t 1 0 = 0x3F800001) = true := by decide
/-- R90: 3 × 5 + 1 in FP16. -/
theorem test_vffma : after (exec (.vffma 1 2 3 1) ((((at_ 0).vreg 1 0x3C003C00).vreg 2 0x42004200).vreg 3 0x45004500)) (fun t => v t 1 0 = 0x4C004C00) = true := by decide
/-- R93, R29 (05_ref_compute.md): the worked stochastic conversion; the other bytes stay. -/
theorem test_vcvt : after (exec (.vcvt 1 2 3 0 0) (((((at_ 0).lanes 1).pre ⟨0, 0, 5, 4, 0, 0⟩).vreg 1 0x11223344).vreg 2 0x3E99999A)) (fun t => v t 1 0 = 0x11223329) = true ∧
    after (exec (.vcvt 1 2 3 0 0) (((at_ 0).lanes 1).vreg 2 0x3E99999A)) (fun t => v t 1 0 = 0x2A) = true := by decide
/-- R94: the reciprocal of 4, and the root of 9. -/
theorem test_special : after (exec (.vfrcp 1 2) (((at_ 0).lanes 1).vreg 2 0x40800000)) (fun t => v t 1 0 = 0x3E800000) = true ∧
    after (exec (.vfsqrt 1 2) (((at_ 0).lanes 1).vreg 2 0x41100000)) (fun t => v t 1 0 = 0x40400000) = true := by decide
/-- R101: lane 0 reads lane 3 by `xor`, and lane 0 of `up 1` reads itself. -/
theorem test_vshfl : after (exec (.vshflXor 1 2 3) ((at_ 0).ramp 2 1))
      (fun t => v t 1 0 = 3 && v t 1 5 = 6) = true ∧
    after (exec (.vshflUp 1 2 1) ((at_ 0).ramp 2 1))
      (fun t => v t 1 0 = 0 && v t 1 5 = 4) = true := by decide
/-- R103: the sum of three active lanes of 7. -/
theorem test_vredsum : after (exec (.vredsumI32 1 2) (((at_ 0).lanes 0x80000011).vreg 2 7)) (fun t => v t 1 4 = 21) = true := by decide
/-- R79, R20: the region entry as `srd.d` reads it. -/
theorem test_srd_region : after (exec (.srdD 40 0x0A) (at_ 0)) (fun t => u t 40 = 0x3000 && u t 41 = 0) = true := by decide
/-- R48: a uniform result is not yet seen in its own cycle, and is seen after one. -/
theorem test_latency : after (exec (.saddi 6 12) (at_ 0)) (fun t => t.U 6 = 0 && (t.warp.settle (t.clock + 1)).readU 6 = 12) = true := by decide

/-! ## Witnesses: compute, special registers and traps

Of each statement with hypotheses, states and operands that meet them together. -/

/-- An answer that is this value, and one that is this trap. -/
def gives {α : Type} [DecidableEq α] (r : Res α) (x : α) : Bool := match r with | .ok y => decide (y = x) | _ => false
def traps {α : Type} (r : Res α) (t : Trap) : Bool := match r with | .error (.trap x) => decide (x = t) | _ => false
theorem gives_ok {α : Type} [DecidableEq α] (r : Res α) (x : α) (h : gives r x = true) : r = .ok x := by
  cases r <;> simp_all [gives]
theorem traps_error {α : Type} (r : Res α) (t : Trap) (h : traps r t = true) : r = .error (.trap t) := by
  match r, h with
  | .error (.trap _), h => simp_all [traps]

/-- FieldSpecs: the least and the greatest bit. -/
theorem witness_FieldSpecs : (0 < 32 ∧ 31 < 32) ∧ (extract32 0xF0 0x0404).toNat = 0xF ∧ (extract32 0xF0 0x10404).toNat = 0xFFFFFFFF ∧ (insert32 0 0xF 0x0404).toNat = 0xF0 := by decide
/-- Rounding: a NaN, a flushed subnormal and an ordinary code; a positive value below the greatest code and at it. -/
theorem witness_Rounding : (bf16 ∈ [fp32, fp16, bf16, e4m3, e5m2, e3m2, e2m3, e2m1] ∧ 0x7FC1 < 2 ^ bf16.width ∧ (bf16.decode 0x7FC1).isNan = true) ∧
    (bf16.flush = true ∧ (0x8001 >>> bf16.mb) % 2 ^ bf16.eb = 0) ∧ (fp16 ∈ [fp32, fp16, e4m3, e5m2, e3m2, e2m3, e2m1] ∧ (⟨false, 3, -1⟩ : Dy).man ≠ 0) ∧
    fp16.rnd .rz (.num ⟨false, 3, -1⟩) < fp16.maxCode ∧ fp16.rnd .rz (.num ⟨false, 1, 40⟩) = fp16.maxCode := by decide
/-- R90: a format and a word of each reserved kind meet the conditions of FusedMultiplyAdd. -/
theorem witness_FusedMultiplyAdd : 2#2 ≠ 3 ∧ bf16 ∈ [fp32, fp16, bf16] ∧ (0x0640000D#32).extractLsb' 22 6 = 0x19 ∧
    (0x0640000D#32).extractLsb' 0 4 = 3#2 ++ 1#2 ∧ (0x06400007#32).extractLsb' 0 4 = 1#2 ++ 3#2 := by decide
/-- FloatComparesAndConversions, SpecialFunctions, RotationAndQuantisation: a NaN, a negative number, and an exponent of 128 and more. -/
theorem witness_SpecialFunctions : fp32.decode (0x7F800001#32).toNat = .nan ∧ (0xBF800000#32).getLsbD 31 = true ∧
    fp32.decode (0xBF800000#32).toNat = .num ⟨true, 0x800000, -23⟩ ∧ fp32.decode (0x43000000#32).toNat = .num ⟨false, 0x800000, -16⟩ ∧
    (2 : Int) ^ 7 * 2 ^ 149 ≤ (0x800000 : Int) * 2 ^ ((-16 : Int) + 149).toNat ∧
    (2 : Nat) ≠ 0 ∧ (1 ≤ 8 ∧ 1 ≠ 0 ∧ 1 ≠ 2) := by decide
/-- SpecialFunctions: `vfexp2` at −149 and at 127, at 128 and more, and just below it; `vflog2` at 1/2 and at 2. -/
theorem witness_SpecialFunctions_cases : (⟨true, 0x950000, -16⟩ : Dy).eqv ⟨decide ((-149 : Int) < 0), (-149 : Int).natAbs, 0⟩ = true ∧ fp32.decode (0xC3150000#32).toNat = .num ⟨true, 0x950000, -16⟩ ∧
    fp32.decode (0x42FE0000#32).toNat = .num ⟨false, 0xFE0000, -17⟩ ∧ (⟨false, 0xFE0000, -17⟩ : Dy).eqv ⟨decide ((127 : Int) < 0), (127 : Int).natAbs, 0⟩ = true ∧
    Dy.le ⟨false, 128, 0⟩ ⟨false, 0x800000, -16⟩ = true ∧ Dy.le ⟨false, 128, 0⟩ ⟨false, 0xFFFFFF, -17⟩ = false ∧
    (∀ e ∈ ([-24, -22] : List Int), Dy.le ⟨false, 1, -1⟩ ⟨false, 0x800000, e⟩ = true ∧ Dy.le ⟨false, 0x800000, e⟩ ⟨false, 2, 0⟩ = true) := by decide
theorem witness_RotationAndQuantisation : (at_ 0).E.getLsbD 0 = true ∧ (fp32.decode (((((at_ 0).vreg 2 0x7F800001).vsrc 2 2).1)[(0 : Fin 32)]).toNat).isNan = true ∧
    (∀ l : Fin 32, (at_ 0).E.getLsbD l = true → (fp32.decode ((((at_ 0).vsrc 2 2).1)[l]).toNat).isNan = false) ∧ (4#7).toNat ≤ 4 ∧ (mxFmt 4).isSome = true := by decide
/-- MatchesAndReductions: some lanes, and none. -/
theorem witness_MatchesAndReductions : ((List.finRange 32).filter fun m : Fin 32 => (at_ 0).E.getLsbD m) ≠ [] ∧ ((List.finRange 32).filter fun m : Fin 32 => ((at_ 0).lanes 0).E.getLsbD m) = [] := by decide

/-- SpecialRegisters, FirmwareSpecialWrites, PrivilegedWordsTrap: the levels; with and without a racking transfer. -/
theorem witness_FirmwareSpecialWrites : ((at_ 0).lev .firmware).warp.level = .firmware ∧ ((at_ 0).lev .firmware).warp.rack = none ∧ (0 < 4 ∧ 3 < 4) ∧
    (let w := (at_ 0).warp; ({ w with rackNext := some ⟨false, 1, 8, 0, some 0, none⟩ } : Warp).rackNext.isSome = true ∧ w.rackNext = none) ∧
    (at_ 0).blk.slot < 4 ∧ 4 ≤ ({ (at_ 0).blk with slot := 4 } : Block).slot ∧ (((at_ 0).sreg 4 4).U 4).getLsbD 2 = true ∧ ((at_ 0).getBlk 0 ((((at_ 0).sreg 4 4).U 4).toNat % 4)).isSome = true := by decide
theorem witness_PrivilegedWordsTrap : (at_ 0).warp.level ≠ .firmware ∧
    after (exec .hbcast (at_ 0)) (fun t => t.warp.halted && (t.core.records.map (·.cause)) = [3]) = true := by decide
/-- TrapRecord: for `trap`, for an address, and where the context has a handler. -/
theorem witness_TrapRecord : (at_ 0).warp.level = .user ∧ (at_ 0).ctx.halted = false ∧ cellsWf (at_ 0).mem = true ∧
    (takeTrap (.user 7) (at_ 0)).readMem 0 0 8 = [1, 0, 0, 0, 0, 0, 0, 1] ∧
    ((takeTrap (.user 7) (at_ 0)).warp.splitAt 0).pc = 0x300C := by decide
theorem witness_FirstUseTrap : (at_ 0).blk.slot < 4 ∧ (at_ 0).core.id = (at_ 0).blk.core ∧ (at_ 0).active = true ∧
    (takeTrap .accFirstUse (at_ 0)).core.accBusy = true := by decide
theorem witness_MissesAndNestedFaults : (at_ 0).warp.level ≠ .firmware ∧ (at_ 0).issue.sp < 4 ∧
    (let s : State := { (at_ 0).lev .firmware with warp := { ((at_ 0).lev .firmware).warp with ncont := 0x600 } }
     s.warp.level = .firmware ∧ s.warp.ncont ≠ 0 ∧ s.warp.ncont.toNat % 12 = 0 ∧ Trap.address 8 ≠ .signature ∧ (takeTrap (.address 8) s).warp.nfault = 1) := by decide
/-- ControlFlowSignature: an immediate that agrees and one that does not. -/
theorem witness_ControlFlowSignature : ((at_ 0).split.sig.extractLsb' 16 16 ^^^ (at_ 0).split.sig.extractLsb' 0 16 = 0#16) ∧
    ((at_ 0).split.sig.extractLsb' 16 16 ^^^ (at_ 0).split.sig.extractLsb' 0 16 ≠ 5#16) ∧ (at_ 0).split.mism = false ∧
    after (exec (.sigck 5) (at_ 0)) (fun t => t.split.mism && t.split.pc = 0x3000) = true := by decide

/-! ## Witnesses: memory -/

/-- A partition of 4096 bytes, a cellar allocation of 4096 bytes, two tiles that the block owns, and tables for an address in each
of the three page sizes. -/
def m0 : State :=
  { at_ 0 with
    blk := { (at_ 0).blk with part := 4096, acc := 2 }
    ctx := { (at_ 0).ctx with csize := 4096 }
    core := { (at_ 0).core with accown := 4 } }

/-- The machine of `m0` with nobody loaded, an operation of its warp, and a machine with that operation alone and no records of cores. -/
def ev : State := m0.unload
def op1 (k : EngKind) (c : CClass) : EngOp := ⟨3, ⟨0, 0, 0⟩, 0, 0, .user, c, k, noCmd, false, false, 0, [], none, 0⟩
def opd (o : EngOp) : State := { ev with ops := [o], cores := [] }
/-- The operation is ready, whatever its kind and its counter (the statements Loads, StoresMemory, VectorAtomics, CellarWords and EngineEvents). -/
theorem witness_ready (k : EngKind) (c : CClass) : (opd (op1 k c)).Ready (op1 k c) [] where
  active := rfl
  ops := rfl
  rest := by simp
  drains := by simp [opd]
  self := ⟨rfl, rfl, rfl, (by decide : 0 < 1024), (by decide : 0 < 4)⟩
  warp := ⟨_, rfl, rfl⟩
  blk := ⟨_, rfl, rfl, (by decide : ∀ x ∈ m0.blk.oslots, x.events = [])⟩
  ctx := rfl

def pt (l : List (Nat × Nat)) : State := { at_ 0 with mem := l.foldl (fun m x => cellsWrite m x.1 (leBytes 8 x.2)) [] }
def rd : Access := progAccess .user true false 0

/-- AddressSpaces: the first and the last address of each space, and its neighbours. -/
theorem witness_AddressSpaces_spaces : traps (place m0 rd 3 4) (.address 3) = true ∧
    gives (place m0 rd 0 8) (.mem 0 0) = true ∧ traps (place m0 rd (BitVec.ofNat 64 (2 ^ 57)) 8) (.address (BitVec.ofNat 64 (2 ^ 57))) = true ∧
    gives (place m0 rd 0xFFFFF00000000FF8 8) (.scratch 0 0 0xFF8) = true ∧ traps (place m0 rd 0xFFFFF00000001000 8) (.address 0xFFFFF00000001000) = true ∧
    gives (place m0 rd 0xFFFFE00000000FC0 64) (.cellar 0xFC0) = true ∧ traps (place m0 rd 0xFFFFE00000001000 64) (.address 0xFFFFE00000001000) = true ∧
    traps (place m0 rd 0xFFFFF00100000000 8) (.address 0xFFFFF00100000000) = true := by decide
/-- AddressSpaces: another member of the cluster, one that holds no block of the context, and a cluster that does not exist. -/
theorem witness_AddressSpaces_members : m0.fab.csize 0 = 4 ∧ m0.fab.clusterBase 0 + 0 = 0 ∧ (m0.allBlks.map fun b => (b.core, b.slot, b.ctx, b.life)) = [(0, 0, 0, .resident)] ∧
    m0.getBlk 0 0 = some m0.blk ∧ m0.saved = [] ∧
    gives (place m0 rd 0xFFFFF00001000008 8) (.scratch 0 0 8) = true ∧ traps (place m0 rd 0xFFFFF00001200008 8) (.address 0xFFFFF00001200008) = true ∧
    traps (place m0 rd 0xFFFFF000B5000000 8) (.address 0xFFFFF000B5000000) = true ∧ traps (place m0 rd 0xFFFFF00000800000 8) (.address 0xFFFFF00000800000) = true := by decide

/-- PageWalk: a leaf of each size, with the key 3 in one; the last entry of each table. -/
theorem witness_PageWalk_leaves :
    gives (translate (pt [(0x1000, 0x2001), (0x2000, 0x3001), (0x3000, 0x4001), (0x4000, 0x00300000000050AF)]) 0x1000 rd 0x123) (0x5123, 3) = true ∧
    gives (translate (pt [(0x1000, 0x2001), (0x2000, 0x3001), (0x3000, 0x4000AF)]) 0x1000 rd 0x1FFFFF) (0x5FFFFF, 0) = true ∧
    gives (translate (at_ 0) 0x1000 rd 0x3FFFFFFF) (0x3FFFFFFF, 0) = true ∧
    gives (translate (pt [(0x1000 + 8 * (2 ^ 18 - 1), 0x2001), (0x2FF8, 0x3001), (0x3FF8, 0x4001), (0x4FF8, 0x50AF)]) 0x1000 rd (2 ^ 57 - 1)) (0x5FFF, 0) = true := by decide
/-- PageWalk: nothing cached covers the address, and cached translations of a page and of a 64 KiB group do. -/
theorem witness_PageWalk_cached : (at_ 0).tlb = [] ∧ (⟨0x1000, 0x5000, 0, 0xA0AF⟩ : TlbEntry).covers 0x1000 0x5FFF = true ∧
    (⟨0x1000, 0x5000, 0, 0xA1AF⟩ : TlbEntry).covers 0x1000 0xF123 = true ∧ (⟨0x1000, 0x5000, 0, 0xA0AF⟩ : TlbEntry).covers 0x1000 0xF123 = false ∧
    (⟨0x1000, 0x5000, 0, 0xA1AF⟩ : TlbEntry).pa 0xF123 = 0xF123 ∧ (⟨0x1000, 0x5000, 0, 0xA0AF⟩ : TlbEntry).pa 0x5FFF = 0xAFFF := by decide
/-- PageWalk: a missing entry at each level, a page of another kind, a page without the right, and a malformed one. -/
theorem witness_PageWalk_failures :
    traps (translate (pt []) 0x1000 rd 0x123) (.miss 0x123 0 1) = true ∧ traps (translate (pt [(0x1000, 0x2001)]) 0x1000 rd 0x123) (.miss 0x123 0 1) = true ∧
    traps (translate (pt [(0x1000, 0x2001), (0x2000, 0x3001)]) 0x1000 rd 0x123) (.miss 0x123 0 1) = true ∧
    traps (translate (pt [(0x1000, 0x2001), (0x2000, 0x3001), (0x3000, 0x4001)]) 0x1000 rd 0x123) (.miss 0x123 0 1) = true ∧
    traps (translate (pt [(0x1000, 0x2001), (0x2000, 0x2D)]) 0x1000 rd 0) (.protect 0 0 1 1) = true ∧
    traps (translate (pt [(0x1000, 0x2001), (0x2000, 0xEF)]) 0x1000 rd 0) (.protect 0 0 2 1) = true ∧
    traps (translate (pt [(0x1000, 0xAF)]) 0x1000 rd 0) (.protect 0 0 3 1) = true ∧
    traps (translate (pt [(0x1000, 0x2001), (0x2000, 0x3001), (0x3000, 0x4001), (0x4000, 0x5001)]) 0x1000 rd 0) (.protect 0 0 3 1) = true ∧
    traps (translate (pt [(0x1000, 0x2011)]) 0x1000 rd 0) (.protect 0 0 3 1) = true ∧
    traps (translate (pt [(0x1000, 0x2001), (0x2000, 0x3001), (0x3000, 0x1000AF)]) 0x1000 rd 0) (.protect 0 0 3 1) = true ∧
    traps (translate (pt [(0x1000, 0x2001), (0x2000, 0x2000AF)]) 0x1000 rd 0) (.protect 0 0 3 1) = true := by decide

/-- Two lanes with a base in s8:s9. -/
def m1 (b : DWord) : State := ((m0.lanes 3).sreg 8 (b.setWidth 32)).sreg 9 ((b >>> 32).setWidth 32)

/-- Loads: lanes 0 and 1 of a plain `vld` in memory and of a `.fe` load in the partition; a modulo register with a length. -/
theorem witness_Loads_vld : (m1 0x4000).Reaches (progAccess (m1 0x4000).warp.level true false 0) 4 (fun l => memLane ((m1 0x4000).UD 8) 0 4 16 1 l) (fun l => .mem (0x4010 + 4 * l.val) 0) :=
  fun l h => gives_ok _ _ ((by decide : ∀ l : Fin 32, (m1 0x4000).E.getLsbD l = true → gives (place (m1 0x4000) (progAccess (m1 0x4000).warp.level true false 0)
    (memLane ((m1 0x4000).UD 8) 0 4 16 1 l) 4) (.mem (0x4010 + 4 * l.val) 0) = true) l h)
theorem witness_Loads_fe : (m1 0xFFFFF00000000000).Reaches (progAccess .user true true 0) 4 (fun l => memLane ((m1 0xFFFFF00000000000).UD 8) 3 4 16 1 l) (fun l => .scratch 0 0 (8 * l.val)) ∧
    ∀ l : Fin 32, (Place.scratch 0 0 (8 * l.val)).inScratch = true :=
  ⟨fun l h => gives_ok _ _ ((by decide : ∀ l : Fin 32, (m1 0xFFFFF00000000000).E.getLsbD l = true → gives (place (m1 0xFFFFF00000000000) (progAccess .user true true 0)
    (memLane ((m1 0xFFFFF00000000000).UD 8) 3 4 16 1 l) 4) (.scratch 0 0 (8 * l.val)) = true) l h), fun _ => rfl⟩
theorem witness_Loads_others : gives (place (m1 0x4000) rd (memLane ((m1 0x4000).UD 8) 1 8 8 1 0) 8) (.mem 0x4000 0) = true ∧ (m1 0x4000).poisoned (.mem 0x4000 0) 8 = false ∧
    gives (place (m1 0xFFFFF00000000000) (progAccess .user true true 0) (memLane ((m1 0xFFFFF00000000000).UD 8) 0 4 4 1 0) 4) (.scratch 0 0 4) = true ∧
    ({ m1 0x4000 with warp := { (m1 0x4000).warp with q := #v[0x0000100000004000, 0, 0, 0] } }).ringLen 0 ≠ 0 ∧
    ((m1 0x4000).ops.filter fun o => o.key = (m1 0x4000).warp.key && o.cls = .gs).length < 63 ∧ (m1 0x4000).E ≠ 0 ∧ ((m1 0x4000).lanes 0).E = 0 := by decide
/-- Loads: two lanes of a `vgld`, in memory and in the partition; its performance, whose result is one register, a pair, or a queue entry. -/
theorem witness_Loads_gather : (∀ l : Fin 32, (m1 0x4000).E.getLsbD l = true → gives (place (m1 0x4000) (progAccess .user true false 1) ((m1 0x4000).UD 8 + ((((m1 0x4000).V 0)[l].setWidth 64) <<< 2)) 4) (.mem 0x4000 0) = true) ∧
    (let s := opd (op1 (.gather 4 9 [(0, .mem 0x4000 0), (1, .scratch 0 0 8)]) .gs)
     (∀ p ∈ [(0, Place.mem 0x4000 0), (1, Place.scratch 0 0 8)], s.poisoned p.2 4 = false) ∧ (s.getWarp ⟨0, 0, 0⟩).isSome = true) ∧
    ([⟨9, none, false, true, .vf 3, 3, zeroVec⟩] : List Pend).all (fun x => x.id = 9) = true ∧ ([⟨9, none, false, true, .vf 4, 3, zeroVec⟩, ⟨9, none, false, true, .vf 5, 3, zeroVec⟩] : List Pend).all (fun x => x.id = 9) = true := by decide
/-- R115, R245: the engine gives the register its value when it reads. -/
theorem test_gather : after (exec (.engineOpComplete 3) { opd (op1 (.gather 4 9 [(0, .mem 0x4000 0)]) .gs) with
      mem := cellsWrite m0.mem 0x4000 [7], warps := ev.warps.map fun w => { w with pend := [⟨9, none, false, true, .vf 3, 1, zeroVec⟩] } })
    (fun t => t.ops = [] && t.warps.all fun w => w.pend = [] && w.vfix[3][0] = 7) = true := by decide
/-- R108, R109: lane 1 reads the word after lane 0's, lane 2 is not active; a base is post-incremented. -/
theorem test_vld : after (exec (.vld 3 4 1 2 0 1) { m1 0x4000 with mem := cellsWrite m0.mem 0x4000 [1, 2, 3, 4, 5, 6, 7, 8] })
    (fun t => v t 3 0 = 0x04030201 && v t 3 1 = 0x08070605 && v t 3 2 = 0 && u t 8 = 0x4010) = true := by decide

/-- StoresMemory: a `vst` of two lanes, the last with `.fs`; the premises on places are those of Loads. -/
theorem witness_StoresMemory : Memory.wf (m1 0xFFFFF00000000000) = true ∧ (m1 0xFFFFF00000000000).active = true ∧
    (∀ l : Fin 32, (m1 0xFFFFF00000000000).E.getLsbD l = true → gives (place (m1 0xFFFFF00000000000) (progAccess .user false true 0)
      (memLane ((m1 0xFFFFF00000000000).UD 8) 0 4 16 0 l) 4) (.scratch 0 0 (4 * l.val)) = true) ∧
    (∀ l : Fin 32, (m1 0x4000).E.getLsbD l = true → gives (place (m1 0x4000) (progAccess .user false true 1) ((m1 0x4000).UD 8 + ((0#64) <<< 2)) 4) (.mem 0x4000 0) = true) ∧
    (m1 0x4000).writeBlocked 0x4000 = false ∧ gives (place (m1 0x4000) (progAccess .user false true 0) (memLane ((m1 0x4000).UD 8) 2 4 4 1 0) 4) (.mem 0x4000 0) = true := by decide
/-- StoresMemory: the performance of a `vgst` of two lanes, in memory and in the partition. -/
theorem witness_StoresMemory_scatter : (let s := opd (op1 (.scatter 4 true [(.scratch 0 0 0, 5), (.scratch 0 0 4, 6)]) .gs)
      Memory.wf s = true ∧ (lanesOf 3).map (fun (l : Fin 32) => (Place.scratch 0 0 (4 * l.val), 5 + l.val)) = [(.scratch 0 0 0, 5), (.scratch 0 0 4, 6)] ∧
      (∀ l ∈ lanesOf 3, (4 * l.val) % 4 = 0) ∧ (s.getBlk 0 0).isSome = true ∧ s.writeBlocked 0x4000 = false) := by decide
/-- R110, R112: `sst.fs` stores its bytes and sets its granule. -/
theorem test_sst : after (exec (.sst 8 4 0 2 3 4) (m1 0xFFFFF00000000000)) (fun t => t.blk.scratch = [] && t.isFull (0, 0, 1)) = true ∧
    after (exec (.sst 9 4 0 2 0 4) (m1 0xFFFFF00000000000)) (fun t => t.blk.scratch = [(17, 0xF0), (18, 0xFF), (19, 0xFF)] && !t.isFull (0, 0, 1)) = true := by decide

/-- MemoryFaults: the first active lane, and a modulo register of length 0. -/
theorem witness_MemoryFaults : (m1 0xFFFFF00000000FFC).E.getLsbD 1 = true ∧ traps (place (m1 0xFFFFF00000000FFC) rd (memLane ((m1 0xFFFFF00000000FFC).UD 8) 0 4 16 0 1) 4) (.address 0xFFFFF00000001000) = true ∧
    gives (place (m1 0xFFFFF00000000FFC) rd (memLane ((m1 0xFFFFF00000000FFC).UD 8) 0 4 16 0 0) 4) (.scratch 0 0 0xFFC) = true ∧ (m1 0).ringLen 3 = 0 ∧
    traps (place (m1 1) (progAccess .user true true 1) ((m1 1).UD 8 + (0#64 <<< 2)) 4) (.address 1) = true ∧
    traps (place (m1 4) (progAccess .user true true 0) ((m1 4).UD 8 + 0) 8) (.address 4) = true := by decide
/-- MemoryFaults: a lane of a `catom` outside the cellar window, the lowest of E, and one after a lane inside it. -/
theorem witness_MemoryFaults_catom : gives (place (m1 0x4000) (progAccess .user true true 0) ((m1 0x4000).UD 8 + 0) 4) (.mem 0x4000 0) = true ∧ (m1 0x4000).E.getLsbD 0 = true ∧
    (let s := ((m1 0xFFFFE00000000FFC).ramp 3 4).pre ⟨0, 0, 0, 3, 0, 0⟩
     gives (place s (progAccess .user true true 0) (s.UD 8 + (((s.V 3)[0]).setWidth 64)) 4) (.cellar 0xFFC) = true ∧
     traps (place s (progAccess .user true true 0) (s.UD 8 + (((s.V 3)[1]).setWidth 64)) 4) (.address 0xFFFFE00000001000) = true) := by decide

/-- VectorAtomics: in memory, and in the cellar, where a `.nr` has room. -/
theorem witness_VectorAtomics : (0#2 ≠ 3 ∧ 2#2 ≠ 3) ∧ Memory.wf (m1 0x4000) = true ∧
    (∀ l : Fin 32, (m1 0x4000).E.getLsbD l = true → gives (place (m1 0x4000) (progAccess .user true true 0) ((m1 0x4000).UD 8 + (0#32).setWidth 64) 4) (.mem 0x4000 0) = true) ∧
    (∀ l : Fin 32, (m1 0xFFFFE00000000040).E.getLsbD l = true → gives (place (m1 0xFFFFE00000000040) (progAccess .user true true 0) ((m1 0xFFFFE00000000040).UD 8) 8) (.cellar 0x40) = true) ∧
    (m1 0xFFFFE00000000040).poisoned (.cellar 0x40) 8 = false ∧ ((m1 0).ops.filter fun o => o.key = (m1 0).warp.key && o.cls = .cl).length < 63 := by decide
/-- VectorAtomics: the performance of a `catom.nr` of two lanes in the cellar. -/
theorem witness_VectorAtomics_bank : (let s := opd (op1 (.catom 4 0 0 [(.cellar 0x40, 5, 0), (.cellar 0x44, 6, 0)]) .cl)
      Memory.wf s = true ∧ (lanesOf 3).map (fun (l : Fin 32) => (Place.cellar (0x40 + 4 * l.val), 5 + l.val, 0)) = [(.cellar 0x40, 5, 0), (.cellar 0x44, 6, 0)] ∧
      (∀ l ∈ lanesOf 3, (0x40 + 4 * l.val) % 4 = 0)) ∧ (0#2 ≠ 3) := by decide
/-- R117: the example of 06_ref_memory_flow.md, lanes 0 and 3 adding 1 and 10 to 5. -/
theorem test_vatom : after (exec (.vatom 1 4 0 0 0 0) ((({ m1 0x4000 with mem := cellsWrite m0.mem 0x4000 [5] }.lanes 9).pre ⟨0, 0, 0, 3, 0, 0⟩).ramp 1 3 |> fun s =>
      { s with warp := { s.warp with vfix := s.warp.vfix.setIfInBounds 1 (Vector.ofFn fun l => if l.val = 0 then 1 else 10) } }))
    (fun t => v t 1 0 = 5 && v t 1 3 = 6 && t.rdN 0x4000 4 = 16) = true := by decide

/-- CellarWords: an aligned line and pair of lines, and misaligned ones; an open line. -/
theorem witness_CellarWords : ((m1 0xFFFFE00000000080).UD 8).toNat % 128 = 0 ∧ gives (place (m1 0xFFFFE00000000080) (progAccess .user true true 0) ((m1 0xFFFFE00000000080).UD 8) 128) (.cellar 0x80) = true ∧
    gives (place (m1 0xFFFFE00000000080) (progAccess .user true true 0) ((m1 0xFFFFE00000000080).UD 8) 64) (.cellar 0x80) = true ∧ ((m1 0xFFFFE00000000041).UD 8).toNat % 64 ≠ 0 ∧
    Memory.wf (opd (op1 (.line 0 0x80 1 (splat 5)) .cl)) = true ∧ 0x80 % 128 = 0 ∧ (((m1 0).armCell 2 3).cline 2).st = 1 := by decide
/-- AccumulatorTransfers: a tile beyond the count, a block that does not own the store, one that does, and a poisoned row. -/
theorem witness_AccumulatorTransfers : m0.blk.acc ≤ (2#10).toNat ∧ (1#10).toNat < m0.blk.acc ∧ m0.core.accBusy = false ∧ m0.core.accown = BitVec.ofNat 3 (4 + m0.blk.slot) ∧
    ({ m0 with core := { m0.core with accown := 5 } } : State).core.accown ≠ BitVec.ofNat 3 (4 + m0.blk.slot) ∧ ((m0.blk.tile 1).poison.getLsbD 0 = false) ∧
    (({ m0.blk with tiles := [⟨1, false, 0x80000000, false⟩] } : Block).tile 1).poison.getLsbD 31 = true := by decide

/-! ## Witnesses and tests: control flow, barriers and work -/

/-- A second live split in record 1, and one reconvergence entry over lanes 0 to 3. -/
def two (p q : Word) : State :=
  let s := m0.lanes p
  { s with warp := { (s.warp.setSplit 1 { s.split with mask := q }) with recon := [⟨p ||| q, 0, [], none, 0⟩] } }
def deep : State := { m0 with warp := { m0.warp with recon := List.replicate 32 ⟨15, 0, [], none, 0⟩ } }
def noRoom : State := { m0 with warp := { m0.warp with splits := Vector.replicate 4 { m0.split with mask := 3 }, masks := m0.warp.masks.setIfInBounds 1 1 } }

/-- Branches: a true and a false predicate; masks that are empty, full and divided; a free record, none, and a full stack. -/
theorem witness_Branches : m0.issue.sp < 4 ∧ m0.warp.preds.getLsbD 1 = false ∧ m0.split.st = .live ∧
    (let s := (m0.lanes 3); (s.M 0) &&& s.split.mask ≠ 0 ∧ (s.M 1) &&& s.split.mask = 0) ∧
    (noRoom.M 1 &&& noRoom.split.mask ≠ 0 ∧ noRoom.split.mask &&& ~~~(noRoom.M 1) ≠ 0 ∧ noRoom.warp.recon.length < 32 ∧ ∀ j < 4, (noRoom.warp.splitAt j).st ≠ .free) ∧
    32 ≤ deep.warp.recon.length ∧ (m0.warp.splitAt 1).st = .free ∧ (∀ k < 1, (m0.warp.splitAt k).st ≠ .free) := by decide
/-- R127, R53: a taken branch 33 packets on. -/
theorem test_bra : after (exec (.bra 0 33) m0) (fun t => t.split.pc = 0x318C && t.issue.ended = some .taken) = true ∧
    after (exec (.bra 1 33) m0) (fun t => t.issue.ended = none) = true := by decide
/-- R128: lane 0 branches, lane 1 goes on at the next packet in the lowest free record. -/
theorem test_vbra : after (exec (.vbra 1 2) { m0.lanes 3 with warp := { (m0.lanes 3).warp with masks := m0.warp.masks.setIfInBounds 1 1 } })
    (fun t => t.split.pc = 0x3018 && t.split.mask = 1 && (t.warp.splitAt 1).pc = 0x300C && (t.warp.splitAt 1).mask = 2 && t.warp.recon.map (·.pending) = [3]) = true := by decide

/-- CallsAndReturns: at the limit and below it; room in the ring, none, and a window that no ring holds; frames on chip and spilled. -/
theorem witness_CallsAndReturns : m0.warp.wlimit < m0.warp.links.length + 1 ∧
    (let s : State := { m0 with warp := { m0.warp with wlimit := 4, w := 64 } }
     s.warp.links.length + 1 ≤ s.warp.wlimit ∧ 16 + 48 ≤ s.warp.w ∧ 48 + ((s.warp.links.filter fun l => !l.out).map (·.k)).sum + 16 ≤ s.warp.w ∧ s.warp.rack = none ∧
       (∀ j < 4, j ≠ s.issue.sp → (s.warp.splitAt j).st ≠ .live)) ∧
    (let s : State := { m0 with warp := { m0.warp with wlimit := 4, w := 64, links := [⟨0x3000, 16, false⟩] } }
     16 + 48 ≤ s.warp.w ∧ s.warp.w < 48 + ((s.warp.links.filter fun l => !l.out).map (·.k)).sum + 16 ∧ (0x3000#64).toNat % 12 = 0 ∧ s.warp.callParks = []) ∧
    (m0.warp.w < 8 + 48 ∧ m0.warp.rackDone = none ∧ (0x3004#64).toNat % 12 ≠ 0 ∧ m0.split.pendCall = none ∧ m0.split.mask ≠ 0 ∧ m0.warp.links = []) ∧
    (∀ l : Fin 32, m0.split.mask.getLsbD l = true → (m0.V 1)[l] ++ (m0.V 0)[l] = 0#64) ∧ (0#64).toNat % 12 = 0 := by decide
/-- CallsAndReturns: another live split, which parks behind the call; a `calli` under way; a split that a return brings back; a spilled frame in a
ring that never holds it; and a calling split whose lanes all exit. -/
theorem witness_CallsAndReturns_parks : ((List.range 4).filter fun j => j ≠ (two 1 2).issue.sp ∧ ((two 1 2).warp.splitAt j).st = .live) = [1] ∧
    ({ m0.split with pendCall := some 0x300C } : Split).pendCall = some 0x300C ∧ ({ m0.warp with rackDone := some 0 } : Warp).rackDone = some 0 ∧
    (let w : Warp := { (two 1 2).warp with links := [⟨0x300C, 16, true⟩], callParks := [⟨0, 0, 1, [1]⟩], recon := [] }
     w.links = ⟨0x300C, 16, true⟩ :: [] ∧ w.w < 16 + 48 ∧ (∀ c ∈ w.callParks, c.depth = 0) ∧ (0 : Nat) ∉ [1] ∧ (∀ e ∈ w.recon, e.merge = none)) ∧
    (let w : Warp := (two 1 2).warp.setSplit 1 { (two 1 2).split with st := .behindCall }
     let v : Warp := { w with links := [⟨0x300C, 0, false⟩], callParks := [⟨0, 0, 1, [1]⟩], recon := [] }
     v.level = .user ∧ v.callParks = [⟨0, 0, 1, [1]⟩] ∧ (0 : Nat) ∉ [1] ∧ (∀ j < 4, j ≠ 0 → (v.splitAt j).st = .free ∨ (v.splitAt j).st = .behindCall) ∧ (v.splitAt 1).st = .behindCall) := by decide
/-- R219: the other split parks, and is live again after the return. -/
theorem test_call_parks : after (exec (.call 0 5) { two 1 2 with warp := { (two 1 2).warp with wlimit := 4 } })
      (fun t => (t.warp.splitAt 1).st = .behindCall && t.split.pc = 0x303C &&
        after (exec .ret { t with issue := m0.issue }) (fun r => (r.warp.splitAt 1).st = .live && r.warp.callParks = [])) = true := by decide
/-- R129, R132: a call by 16 advances the window, and the return undoes it. -/
theorem test_call_ret : after (exec (.call 2 5) { m0 with warp := { m0.warp with wlimit := 4, w := 64 } })
      (fun t => t.split.pc = 0x303C && t.warp.wbase = 16 && t.warp.links = [⟨0x300C, 16, false⟩] &&
        after (exec .ret { t with issue := m0.issue }) (fun r => r.split.pc = 0x300C && r.warp.wbase = 0 && r.warp.links = [])) = true := by decide

/-- RegionsAndMerges: a split that waits for another, one that completes the merge, a division by the last split, and the ways an `exit` ends. -/
theorem witness_RegionsAndMerges_reconv :
    (∀ e ∈ m0.warp.recon, e.pending &&& m0.split.mask = 0) ∧ m0.split.rmerge = none ∧
    (let s := two 1 2
     s.warp.recon = ⟨3, 0, [], none, 0⟩ :: [] ∧ (3#32) &&& s.split.mask ≠ 0 ∧ s.split.rskip = false ∧ (3#32) &&& ~~~(0#32 ||| s.split.mask) ≠ 0) ∧
    (let s : State := { two 1 2 with warp := { ((two 1 2).warp.setSplit 1 { (two 1 2).split with mask := 2, st := .atReconv, pc := 0x3000, slot := 1 }) with recon := [⟨3, 2, [], none, 0⟩] } }
     let q := s.warp.splitAt 1
     1 < 4 ∧ 1 ≠ s.issue.sp ∧ q.st = .atReconv ∧ q.pc = s.issue.pkt ∧ q.slot = s.issue.next ∧ q.mask ≠ 0 ∧ s.split.mask ≠ 0 ∧ (3#32) = q.mask ||| s.split.mask ∧
       (∀ j < 4, j ≠ 1 → j ≠ s.issue.sp → (s.warp.splitAt j).st = .free)) := by decide
/-- RegionsAndMerges: the other part of a division is deferred, and resumes where the first part parks or exits. -/
def later (q : Word) : State :=
  { m0.lanes 1 with warp := { (m0.lanes 1).warp with recon := [⟨3, 0, [{ m0.split with mask := q, pc := 0x6000 }], none, 0⟩] } }
theorem witness_RegionsAndMerges_deferred : ((later 2).warp.recon.map fun e => (e.pending, e.arrived, e.deferred.map (fun d => (d.st, d.mask)))) = [(3, 0, [(.live, 2)])] ∧
    (3#32) &&& (later 2).split.mask ≠ 0 ∧ (later 2).split.rskip = false ∧ (3#32) &&& ~~~2#32 &&& ~~~(0#32 ||| (later 2).split.mask) = 0 ∧ (later 2).warp.level = .user ∧
    (later 2).warp.callParks = [] ∧ (∀ j < 4, ((later 2).warp.splitAt j).st ≠ .atBarrier) ∧ (3#32) &&& ~~~(later 2).split.mask ≠ 0 ∧
    (3#32) &&& ~~~(later 2).split.mask &&& ~~~2#32 &&& ~~~0#32 = 0 := by decide
/-- R207: the deferred part runs in the record of the part that parks or exits. -/
theorem test_deferred : after (exec .reconv (later 2)) (fun t => (t.warp.splitAt 0).pc = 0x6000 && (t.warp.splitAt 0).mask = 2) = true ∧
    after (exec .exit (later 2)) (fun t => (t.warp.splitAt 0).pc = 0x6000 && t.warp.recon.map (·.pending) = [2]) = true := by decide
theorem witness_RegionsAndMerges_exit :
    (let s := two 1 2; (∀ e ∈ s.warp.recon, e.deferred = [] ∧ e.pending &&& ~~~s.split.mask &&& ~~~e.arrived ≠ 0) ∧
      ¬((∀ j < 4, j ≠ s.issue.sp → (s.warp.splitAt j).st = .free) ∧ ∀ e ∈ s.warp.recon, e.deferred = []) ∧ (∀ j < 4, (s.warp.splitAt j).st ≠ .atBarrier) ∧ s.warp.callParks = []) ∧
    (m0.warp.level = .user ∧ (∀ j < 4, j ≠ m0.issue.sp → (m0.warp.splitAt j).st = .free) ∧ (∀ e ∈ m0.warp.recon, e.deferred = []) ∧
      (∀ o ∈ m0.ops, o.key = m0.warp.key → o.cls = .none) ∧ m0.active = true) ∧
    (let s := m0.issues 0 .cl (.scatter 4 false []) 0; ∃ o ∈ s.ops, o.key = s.warp.key ∧ o.cls ≠ .none) := by decide
/-- R133, R269: the exit of a block's last split ends the warp and its block. -/
theorem test_exit : after (exec .exit m0) (fun t => t.issue.ended = some .gone && (t.getWarp ⟨0, 0, 0⟩).isNone) = true := by decide

/-- WaitsAndUserTraps: a counter at and above the bound, a copy's fault, the last slot and another, and a context that debugs. -/
theorem witness_WaitsAndUserTraps : (let s := m0.issues 0 .cp (.gather 4 9 []) 0; (s.ops.filter fun o => o.key = s.warp.key && o.cls = .cp).length = 1) ∧
    (m0.ops.filter fun o => o.key = m0.warp.key && o.cls = .cp).length ≤ (0#6).toNat ∧ (∀ f ∈ m0.warp.copyFault, f.cls ≠ .cp) ∧
    ({ m0.warp with copyFault := [⟨.cp, 0, none⟩] } : Warp).copyFault = ⟨.cp, 0, none⟩ :: [] ∧ m0.issue.next < 3 ∧ 3 ≤ ({ m0.issue with next := 3 } : Issue).next ∧
    m0.split.ptrap = none ∧ ({ m0.split with ptrap := some (.user 7) } : Split).ptrap ≠ none ∧ m0.ctx.debugging = false ∧ ({ m0.ctx with debugging := true } : Ctx).debugging = true := by decide
/-- R193: `trap` waits for the end of its packet. -/
theorem test_trap : after (exec (.trap 7) m0) (fun t => t.split.ptrap = some (.user 7) && !t.warp.halted) = true := by decide

/-- A block with two barriers, of whose warps ranks 0 and 1 are members of barrier 0, and rank 1 alone of barrier 1. -/
def barred (arr : Word) : State :=
  { m0 with blk := { m0.blk with nw := 2, bars := 2, clusterBars := true, barrier := [⟨3, false, 3, false, 5, arr, false, 0, false, false⟩, ⟨2, false, 2, false, 0, 0, false, 0, false, false⟩] } }
def withArr (s : State) (l : List (Bool × Nat × Word × Bool)) : State := { s with warp := { s.warp with lastArr := l } }

/-- Barriers: first and last arrivals, a second arrival, no member, no allocation; a wait with nothing to wait for, one that is over and
one that is not. -/
theorem witness_Barriers_block : (barred 0).active = true ∧ (barred 0).warp.level = .user ∧ (barred 0).issue.sp < 4 ∧ (barred 0).split.st = .live ∧
    (∀ j < 4, j ≠ (barred 0).issue.sp → ((barred 0).warp.splitAt j).st = .free) ∧ (barred 0).blk.bars ≤ (2#4).toNat ∧
    (barred 0).blk.barrier[(0#4).toNat]? = some ⟨3, false, 3, false, 5, 0, false, 0, false, false⟩ ∧ (0#4).toNat < (barred 0).blk.bars ∧ (3#32) &&& (1#32 <<< (barred 0).warp.key.rank) ≠ 0 ∧
    (0#32) &&& (1#32 <<< (barred 0).warp.key.rank) = 0 ∧ (2#32) ||| (1#32 <<< (barred 2).warp.key.rank) = 3#32 ∧ (1#32) &&& (1#32 <<< (barred 1).warp.key.rank) ≠ 0 ∧
    (2#32) &&& (1#32 <<< (barred 0).warp.key.rank) = 0 ∧ (barred 0).split.wait = none := by decide
theorem witness_Barriers_waits : ((barred 0).warp.lastArr.find? fun a => a.1 = false && a.2.1 = 0) = none ∧
    ((withArr (barred 0) [(false, 0, 4, true)]).warp.lastArr.find? fun a => a.1 = false && a.2.1 = 0) = some (false, 0, 4, true) ∧ (4#32) ≠ 5#32 ∧
    ((withArr (barred 0) [(false, 0, 5, false)]).warp.lastArr.find? fun a => a.1 = false && a.2.1 = 0) = some (false, 0, 5, false) ∧
    2 ^ (barred 0).blk.nw ≤ (((barred 0).sreg 4 4).U 4).toNat ∧ (((barred 0).sreg 4 3).U 4).toNat < 2 ^ (barred 0).blk.nw ∧ (barred 0).blk.seq.present = false ∧
    (3#32) &&& ~~~0#32 ≠ 0 ∧ (∀ w ∈ (barred 0).allWarps, w.key.core = (barred 0).blk.core → w.key.slot = (barred 0).blk.slot → w.exited = false) ∧
    (withArr ((barred 0).setSplit { (barred 0).split with wait := some (.barrier false 0 4) }) [(false, 0, 4, true)]).split.wait = some (.barrier false 0 4) := by decide
/-- A cluster barrier of two members, in generation 1. -/
def cluster (arr : List WKey) : State := { barred 0 with cbars := [⟨0, 0, 0, [⟨0, 0, 0⟩, ⟨0, 0, 1⟩], [⟨0, 0, 0⟩, ⟨0, 0, 1⟩], 1, arr, [], false⟩] }
theorem witness_Barriers_cluster : m0.blk.clusterBars = false ∧ (cluster []).blk.clusterBars = true ∧ (cluster []).fab.clusterOf (cluster []).core.id = 0 ∧
    (cluster []).warp.key ∈ ((cluster []).cbar 0 0 0).mem ∧ (cluster []).warp.key ∉ ((cluster []).cbar 0 0 0).arr ∧ ((cluster []).cbar 0 0 0).abn = false ∧
    (cluster []).warp.key ∉ ((cluster []).cbar 0 0 1).mem ∧ ((cluster []).warp.lastArr.find? fun a => a.1 = true && a.2.1 = 0) = none ∧
    ((withArr (cluster []) [(true, 0, 0, false)]).warp.lastArr.find? fun a => a.1 = true && a.2.1 = 0) = some (true, 0, 0, false) ∧
    (∀ k ∈ ((cluster [⟨0, 0, 1⟩]).cbar 0 0 0).mem, k ∈ ((cluster [⟨0, 0, 1⟩]).cbar 0 0 0).arr ∨ k = (cluster [⟨0, 0, 1⟩]).warp.key) := by decide
/-- Barriers: nobody waits for the next generation; a second arrival, of this warp and while another warp waits; one whose generation is over,
with its last arrival there and here; and a cluster's member that has arrived while another has not. -/
theorem witness_Barriers_second : (∀ b ∈ (barred 0).blk.barrier, b.wait = 0 ∧ b.waitSeq = false) ∧ (barred 0).blk.seq.late = none ∧ (1#32) ≠ 3#32 ∧
    (let b : Bar := ⟨3, false, 3, false, 5, 1, false, 1, false, false⟩; (2#32) &&& b.arr = 0 ∧ b.arr ||| 2#32 = b.mem ∧ b.wait &&& b.nmem ≠ b.nmem) ∧
    (let s := (barred 1).setSplit { (barred 1).split with wait := some (.arriveWait false 0 4) }
     s.split.wait = some (.arriveWait false 0 4) ∧ (5#32) ≠ 4#32 ∧ (∃ a ∈ (withArr s [(false, 0, 5, false)]).warp.lastArr, a.1 = false ∧ a.2.1 = 0 ∧ a.2.2.1 ≠ 4) ∧
       (∀ a ∈ (withArr s [(false, 0, 4, false)]).warp.lastArr, a.1 = false → a.2.1 = 0 → a.2.2.1 = 4)) ∧
    ((cluster []).cbar 0 0 0).wait = [] ∧ (cluster [⟨0, 0, 0⟩]).warp.key ∈ ((cluster [⟨0, 0, 0⟩]).cbar 0 0 0).arr ∧
    (∃ k ∈ ((cluster [⟨0, 0, 0⟩]).cbar 0 0 0).mem, k ∉ ((cluster [⟨0, 0, 0⟩]).cbar 0 0 0).arr) := by decide
/-- R241: a second arrival is kept for the next generation. -/
theorem test_second_arrival : after (exec (.arrive 0) (barred 1)) (fun t => (t.blk.barrier.map (·.wait)) = [1, 0] && t.issue.ended = some (.waiting (.arriveWait false 0 5))) = true := by decide
/-- R140: the last arrival begins the next generation. -/
theorem test_arrive : after (exec (.arrive 0) (barred 2)) (fun t => t.blk.barrier.map (fun b => (b.gen, b.arr)) = [(6, 0), (0, 0)]) = true ∧
    after (exec (.arrive 0) (barred 0)) (fun t => t.blk.barrier.map (fun b => (b.gen, b.arr)) = [(5, 1), (0, 0)]) = true := by decide

/-- A job card at 0x4000 with NEXT 10 and REMAIN n, in chunks of at least 4. -/
def card (n : Nat) : State := { ((m0.sreg 8 0x4000).sreg 9 0) with mem := cellsWrite m0.mem 0x4000 (leBytes 20 0 ++ leBytes 4 4 ++ leBytes 4 1 ++ leBytes 4 8 ++ leBytes 8 0 ++ leBytes 4 10 ++ leBytes 4 n) }
/-- A deque at the start of the partition with room for 4 tasks and c in it. -/
def deque (c : Nat) : State := { ((m0.sreg 8 0).sreg 9 0xFFFFF000) with blk := { m0.blk with scratch := cellsWrite [] 0 (leBytes 4 c ++ leBytes 4 4) } }

/-- WorkWords: an empty card and one with work; an empty, a full and an open deque, with and without a thief and an inbox task. -/
theorem witness_WorkWords_jobs : (card 100).active = true ∧ Memory.wf (card 100) = true ∧ gives (place (card 100) (progAccess .user true true 0) ((card 100).UD 8) 64) (.mem 0x4000 0) = true ∧
    (card 100).poisoned (.mem 0x4000 0) 64 = false ∧ (card 100).writeBlocked 0x4000 = false ∧ (card 100).blk.draining = false ∧ (card 100).blk.items.length ≤ 256 ∧
    leNat ((card 100).readPlace (.mem (0x4000 + 44) 0) 4) = 100 ∧ leNat ((card 0).readPlace (.mem (0x4000 + 44) 0) 4) = 0 := by decide
theorem witness_WorkWords_tasks : gives (place (deque 1) (progAccess .user true true 0) ((deque 1).UD 8) 16) (.scratch 0 0 0) = true ∧
    leNat ((deque 1).readPlace (.scratch 0 0 0) 4) = 1 ∧ leNat ((deque 4).readPlace (.scratch 0 0 4) 4) ≤ leNat ((deque 4).readPlace (.scratch 0 0 0) 4) ∧
    gives (place (deque 1) (progAccess .user true true 0) ((deque 1).UD 8 + BitVec.ofNat 64 (16 + 8 * 1)) 8) (.scratch 0 0 24) = true ∧
    (deque 1).core.mailbox.find? (fun x => x.ctx = (deque 1).ctx.id) = none ∧
    ({ (deque 1).core with mailbox := [⟨1, 0, 0⟩] } : Core).mailbox.find? (fun x => x.ctx = (deque 1).ctx.id) = some ⟨1, 0, 0⟩ ∧ (deque 1).blk.inbox = none ∧
    (let v := (m0.U 4).toNat; v ≤ 639 ∧ (∃ b ∈ m0.allBlks, b.core = v ∧ b.ctx = m0.ctx.id ∧ b.life = .resident) ∧ (m0.getCore v).mailbox.length < 4 ∧ m0.blk.stealPosted = false ∧ m0.blk.inbox.isSome = false) ∧
    (let s := m0.sreg 4 640; ¬(s.U 4).toNat ≤ 639) := by decide
theorem witness_WorkWords_refill : m0.warp.loopHead ≠ m0.issue.pkt ∧
    (let s : State := { m0 with warp := { m0.warp with loopHead := 0x3000 }, blk := { m0.blk with items := [7] } }
     s.warp.loopHead = s.issue.pkt ∧ lanesOf (s.M 1 &&& s.split.mask) = [] ∧ s.split.mask ≠ 0 ∧ lanesOf ((s.lanes 1).M 0 &&& (s.lanes 1).split.mask) ≠ [] ∧
       (lanesOf ((s.lanes 1).M 0 &&& (s.lanes 1).split.mask)).length ≤ s.blk.items.length) := by decide
/-- A card with REMAIN n whose completion is signalled to `name`, read with a table of names. -/
def ending (n name : Nat) (es : List NameEntry) : State :=
  { card n with mem := cellsWrite (cellsWrite (card n).mem 0x4020 (leBytes 8 name)) 0x8000 (leBytes 8 0x9000 ++ leBytes 4 16 ++ leBytes 2 0 ++ leBytes 2 1), directory := 0x8000, names := es }
def target (st count : Nat) : NameEntry := ⟨5, 7, true, 0, false, st, count, 0, Vector.replicate 4 0, Vector.replicate 4 0, [], [], 0, 0⟩
/-- WorkWords: the last chunk of a card, and one too long for the item queue; no signal, a signal to another module, to no entry, to an entry
in transit, to a dead one, to one whose count is full, and to one that takes it; a chunk that waits for room. -/
theorem witness_WorkWords_last : (∀ f n, (card 3).split.wait ≠ some (.items f n)) ∧ (card 3).inReserve (.mem 0x4000 0) = false ∧ 10 + 3 < 2 ^ 32 ∧ min 3 (max 4 1) = 3 ∧
    (card 3).blk.items.length + 3 ≤ 256 ∧ 256 < ({ (card 3).blk with items := List.replicate 254 0 } : Block).items.length + 13 ∧
    leNat ((ending 3 0 []).readPlace (.mem 0x4020 0) 8) = 0 ∧ (ending 3 5 []).remote 5 = false ∧ ((ending 3 5 []).entry 5) = none ∧ (m0.fab.homeModule ≠ 1) ∧
    (ending 3 5 [target 4 3]).entry 5 = some (target 4 3) ∧ (ending 3 5 [target 5 3]).entry 5 = some (target 5 3) ∧ (ending 3 5 [target 1 3]).entry 5 = some (target 1 3) ∧
    2 ^ 32 ≤ (target 1 (2 ^ 32 - 1)).count + 1 ∧ (target 1 3).count + 1 < 2 ^ 32 ∧ (target 1 3).opn = true ∧
    ({ ending 3 5 [] with fab := { m0.fab with homeModule := 1 } } : State).remote 5 = true ∧
    (m0.setSplit { m0.split with wait := some (.items 10 13) }).split.wait = some (.items 10 13) ∧ m0.blk.items.length + 13 ≤ 256 := by
  refine ⟨fun f n h => ?_, by decide⟩
  rw [(by decide : (card 3).split.wait = none)] at h; cases h
/-- R222: the take that empties the card sends its signal. -/
theorem test_jtake_last : after (exec (.jtake 8 0) (ending 3 5 [target 1 3])) (fun t => u t 11 = 3 && t.rdN (0x4000 + 44) 4 = 0 && t.names.map (·.count) = [4]) = true ∧
    after (exec (.jtake 8 1) { card 100 with blk := { m0.blk with items := List.replicate 254 0 } }) (fun t => t.issue.ended = some (.waiting (.items 10 13)) && t.rdN (0x4000 + 44) 4 = 87) = true := by decide
/-- WorkWords: a refill that wants more items than there are, of an empty card. -/
theorem witness_WorkWords_short : (let s : State := { card 0 with warp := { (card 0).warp with loopHead := 0x3000, masks := m0.warp.masks.setIfInBounds 1 3 }, blk := { m0.blk with items := [7], card := 0x4000 } }
     s.warp.loopHead = s.issue.pkt ∧ (lanesOf (s.M 1 &&& s.split.mask)).length = 2 ∧ s.blk.items.length < 2 ∧ s.blk.items ≠ [] ∧
       gives (place s (progAccess .user true true 0) s.blk.card 64) (.mem 0x4000 0) = true ∧ s.poisoned (.mem 0x4000 0) 64 = false ∧ s.writeBlocked 0x4000 = false ∧ s.blk.draining = false ∧
       leNat (s.readPlace (.mem (0x4000 + 44) 0) 4) = 0) := by decide
/-- R145: max(4, ⌈100 ÷ 8⌉) = 13 items from 10. -/
theorem test_jtake : after (exec (.jtake 8 0) (card 100)) (fun t => u t 10 = 10 && u t 11 = 13 && t.rdN (0x4000 + 40) 4 = 23 && t.rdN (0x4000 + 44) 4 = 87) = true := by decide

/-! ## Witnesses and tests: commands, firmware and the matrix stream -/

/-- A command in s8 to s11. -/
def cmd (s : State) (a b c d : Word) : State := (((s.sreg 8 a).sreg 9 b).sreg 10 c).sreg 11 d

/-- CopyCommands: valid copies to the partition and the cellar, one of no bytes, and commands that break a rule. -/
theorem witness_CopyCommands_cpy : (let s := cmd m0 0x4000 0 0 64
      (s.UD 8).toNat % 16 = 0 ∧ (s.UD 8).toNat < 2 ^ 57 ∧ (s.U 10).toNat / 2 ^ 30 ≤ 1 ∧ (s.U 10).toNat / 2 ^ 26 % 16 = 0 ∧ (s.U 10).toNat % 2 ^ 26 % 16 = 0 ∧ (s.U 11).toNat % 16 = 0 ∧ (s.U 11).toNat ≤ 2 ^ 24 ∧
        (s.U 10).toNat % 2 ^ 26 + 1 * (s.U 11).toNat ≤ s.blk.part ∧ 0 < (s.U 11).toNat ∧ (s.ops.filter fun o => o.key = s.warp.key && o.cls = .cp).length < 63) ∧
    (let s := cmd m0 0x4000 0 0x40000000 0x1000; (s.U 10).toNat / 2 ^ 30 = 1 ∧ s.ctx.cbase ≤ 0 ∧ 0 + 1 * (s.U 11).toNat ≤ s.ctx.cbase + s.ctx.csize) ∧
    (let s := cmd m0 0x4000 0 0 0; 1 * (s.U 11).toNat = 0) ∧ (let s := cmd m0 0x4008 0 0 16; (s.UD 8).toNat % 16 ≠ 0) ∧
    (let s := cmd m0 0x100 0xFFFFF000 0 16; 0xFFFFF00000000000 ≤ (s.UD 8).toNat ∧ (s.UD 8).toNat < 0xFFFFF00000000000 + 2 ^ 32) ∧
    (let s := cmd m0 0 0x2000000 0 16; ¬((s.UD 8).toNat < 2 ^ 57 ∨ (0xFFFFF00000000000 ≤ (s.UD 8).toNat ∧ (s.UD 8).toNat < 0xFFFFF00000000000 + 2 ^ 32) ∨
      (0xFFFFE00000000000 ≤ (s.UD 8).toNat ∧ (s.UD 8).toNat < 0xFFFFE00000000000 + 2 ^ 26))) := by decide
/-- A slot record of FP16 in slot 0, of two slots. -/
def slotted (o : List OSlot) : State := { m0 with blk := { m0.blk with slots := 2, oslots := o } }
def half (n : Nat) : OSlot := ⟨n, true, 0, 0, true, false, some 0, [], [], 0, 0, []⟩
/-- A record of 8-bit integers over K = 128, which takes two slots. -/
def wide : OSlot := ⟨0, true, 0x409, 0, true, false, some 0, [], [], 0, 0, []⟩
theorem witness_CopyCommands_others : (let s := cmd (slotted [half 0]) 0x4000 0 0 64
      (s.UD 8).toNat % 16 = 0 ∧ (s.U 10).toNat < 1024 ∧ (s.U 11).toNat % 16 = 0 ∧ (s.U 10).toNat % 256 < s.blk.slots ∧ s.blk.partner 0 = false ∧ (s.blk.oslot 0).valid = true ∧ (s.blk.oslot 0).ahead.valid = true ∧
        s.active = true ∧ s.blk.joinPairs = s.blk ∧ (∀ x ∈ s.blk.oslots, x.events = []) ∧ (s.blk.oslot 0).readers = 0 ∧ (s.blk.oslot 1).readers = 0) ∧
    (let s := slotted [wide]; s.blk.partner 1 = true ∧ (s.blk.oslot 1).valid = false ∧ s.blk.slots ≤ 2) ∧
    (let s : State := { m0 with blk := { m0.blk with scratch := cellsWrite [] 0 (leBytes 8 0x4000 ++ leBytes 8 0x8000 ++ leBytes 4 0 ++ leBytes 4 64) } }
     (s.U 8).toNat % 32 = 0 ∧ (s.U 8).toNat + 32 ≤ s.blk.part ∧ leNat (cellsRead s.blk.scratch 0 8) = 0x4000 ∧ leNat (cellsRead s.blk.scratch 20 4) = 64 ∧ leNat (cellsRead s.blk.scratch 18 2) ≤ 1) ∧
    (m0.ops.filter fun o => o.key.core = m0.core.id && !o.done && (match o.kind with | .cpyr .. => true | _ => false)).length < 8 := by decide
/-- R154: the shape word of the example of 07_ref_engines_system.md gives 32 rows of 64 bytes at a stride of 192. -/
theorem test_cpy : after (exec (.cpy 8 0 1 0) (cmd { m0 with blk := { m0.blk with part := 8192 } } 0x4000 0 0 0x07C0180C))
    (fun t => t.ops.map (fun o => (o.cls, o.kind, o.done)) = [(.cp, .cpy false 0x4000 0 false 32 64 192, false)]) = true := by decide

/-- OperandSlots: a slot beyond the allocation, a partner, an empty slot, a claimed one, and chunks that fit and do not. -/
theorem witness_OperandSlots : m0.active = true ∧ m0.blk.slots ≤ 0 ∧ (slotted [wide]).blk.partner 1 = true ∧ (slotted []).blk.partner 0 = false ∧ ((slotted []).blk.oslot 0).claimed = false ∧
    ((slotted [half 0]).blk.oslot 0).claimed = true ∧ ((slotted [half 0]).blk.oslot 0).readers = 0 ∧ (∀ x ∈ (slotted [half 0]).blk.oslots, x.events = []) ∧ (slotted [half 0]).ops = [] ∧ (slotted [half 0]).blk.joinPairs = (slotted [half 0]).blk ∧ ((slotted [half 0]).blk.oslot 1).readers = 0 ∧
    0 < ((slotted [{ half 0 with readers := 1 }]).blk.oslot 0).readers ∧ ((slotted []).blk.oslot 0).ahead.claimed = false ∧
    (let o : OSlot := { half 0 with events := [.claim 4 (some ⟨0, 0, 0⟩) 9 0] }; (∃ e ∈ o.events, e.who = some m0.warp.key) ∧ o.ahead.hdr = 9) ∧
    ((slotted [half 0]).blk.oslot 0).valid = true ∧ 128 * 15 + 128 ≤ imageBytes ((slotted [half 0]).blk.oslot 0).hdr ∧ ¬(128 * 16 + 128 ≤ imageBytes ((slotted [half 0]).blk.oslot 0).hdr) := by decide
/-- R159, R163: a claim, and the status that `ohdr` reads of a filled slot. -/
theorem test_oclaim : after (exec (.oclaim 8) (cmd (slotted []) 1 9 0 0)) (fun t => t.blk.oslots.map (fun o => (o.n, o.claimed, o.hdr, o.data)) = [(1, true, 9, false)]) = true ∧
    after (exec (.ohdr 8) (cmd (slotted [half 0]) 0 0 0 0)) (fun t => u t 11 = 0x83) = true := by decide

/-- An entry of the caller, LIVE with a count of 3, a message's receipt and its wake flag. -/
def me : NameEntry := ⟨5, 7, true, 0, true, 1, 3, 0, Vector.replicate 4 0, #v[5, 0, 0, 0], [], [⟨1, 0, 16, 2, 0⟩], 0, 0⟩
/-- A directory at 0x8000 whose domain 0 has 16 names at 0x9000. -/
def dir (s : State) : State := { s with directory := 0x8000, mem := cellsWrite s.mem 0x8000 (leBytes 8 0x9000 ++ leBytes 4 16 ++ leBytes 2 0 ++ leBytes 2 1) }
def named (e : NameEntry) : State := { dir m0 with names := [e], warp := { m0.warp with name := 5 } }

/-- NameWords: with and without an entry of one's own; a free place and none; counts below and at the minimum; a receipt and none. -/
theorem witness_NameWords_own : m0.issue.sp < 4 ∧ m0.entry m0.warp.name = none ∧ (named me).entry (named me).warp.name = some me ∧ m0.split.wait = none ∧
    (let s := cmd (named me) 5 0 3 7; (s.U 10).toNat ≤ me.count ∧ (s.U 11).setWidth 16 = me.gen ∧ me.st ≠ 5 ∧ s.remote (s.UD 8) = false ∧ s.entry (s.UD 8) = some me) ∧
    (let s := cmd (named me) 5 0 4 8; me.count < (s.U 10).toNat ∧ me.wake = true ∧ me.gen ≠ (s.U 11).setWidth 16) ∧ me.receipts = ⟨1, 0, 16, 2, 0⟩ :: [] ∧
    (m0.sends.filter fun x => x.core = some m0.core.id && x.op.isMsg = false).length < 8 ∧ me.posts.length < 8 ∧
    (let s := cmd m0 0x4000 0 16 0; (s.UD 8).toNat % 16 = 0 ∧ (s.UD 8).toNat < 2 ^ 57 ∧ 1 ≤ (s.U 10).toNat ∧ (s.U 10).toNat ≤ 4096 ∧ (s.U 10).toNat % 16 = 0 ∧ s.entry s.warp.name = none) := by decide
theorem witness_NameWords_table : (let s := cmd m0 0x4000 0 0 0
      (s.UD 8).toNat < 2 ^ 57 ∧ (s.UD 8).toNat % 4 = 0 ∧ gives (place s (progAccess .user true false 0) (s.UD 8) 4) (.mem 0x4000 0) = true ∧ s.poisoned (.mem 0x4000 0) 4 = false ∧
        leNat (s.readPlace (.mem 0x4000 0) 4) = (s.U 10).toNat ∧ s.wtab.length < 8192 ∧ leNat (s.readPlace (.mem 0x4000 0) 4) ≠ ((s.sreg 10 1).U 10).toNat) ∧
    (m0.setSplit { m0.split with wait := some (.wwait true) }).split.wait = some (.wwait true) ∧ (cmd m0 2 0 0 0).UD 8 = 2 ∧ 2 % 4 ≠ 0 := by decide
/-- NameWords: messages and file requests find room whatever number of bounce pages a module has beyond 16. -/
theorem witness_NameWords_messages : ¬(8 ≤ (m0.sends.filter fun x => x.core = some m0.core.id && x.op.isMsg = true).length ∨ m0.bounceFull = true) ∧
    (let s := cmd m0 0 0 0 16; (s.U 10).toNat % 16 = 0 ∧ (s.U 11).toNat % 2 ^ 13 ≤ 4096 ∧ (s.U 11).toNat / 2 ^ 13 % 8 = 0 ∧ (s.U 10).toNat + (s.U 11).toNat % 2 ^ 13 ≤ s.blk.part ∧
      (s.U 8).toNat % 32 = 0 ∧ (s.U 8).toNat + 32 ≤ s.blk.part) :=
  ⟨fun h => h.elim (by decide) fun h => Nat.not_lt_zero _ (of_decide_eq_true h), by decide⟩
/-- NameWords: a name of another module; waits that resume, of one's own entry and of another's; and a buffer that ends at 2^57 and beyond. -/
theorem witness_NameWords_resumed : (let s : State := { named me with fab := { m0.fab with homeModule := 1 } }; s.remote s.warp.name = true ∧ (s.sends.filter fun x => x.core = some s.core.id && x.op.isMsg = false).length < 8) ∧
    (named me).remote (named me).warp.name = false ∧ (m0.remote m0.warp.name = false) ∧
    ((named me).setSplit { m0.split with wait := some (.nwait 4 false) }).split.wait = some (.nwait 4 false) ∧ (3#32).toNat ≤ me.count ∧ me.count < (4#32).toNat ∧ (false && me.wake) = false ∧
    ((named me).setSplit { m0.split with wait := some (.njoin 5 7) }).split.wait = some (.njoin 5 7) ∧ (named me).remote 5 = false ∧ (named me).entry 5 = some me ∧ me.gen = 7 ∧ me.st ≠ 5 ∧
    (named { me with st := 5 }).entry 5 = some { me with st := 5 } ∧
    (let s := cmd m0 0xFFFFFFF0 0x1FFFFFF 16 0; (s.UD 8).toNat + (s.U 10).toNat ≤ 2 ^ 57) ∧ (let s := cmd m0 0xFFFFFFF0 0x1FFFFFF 32 0; ¬((s.UD 8).toNat + (s.U 10).toNat ≤ 2 ^ 57)) := by decide
/-- R176: `nwait` subtracts the minimum and reads the rest. -/
theorem test_nwait : after (exec (.nwait 8 0) (cmd (named me) 5 0 2 0)) (fun t => u t 10 = 1 && u t 11 = 0 && t.names.map (·.count) = [1]) = true ∧
    after (exec (.nwait 8 0) (cmd (named me) 5 0 4 0)) (fun t => t.issue.ended = some (.waiting (.nwait 4 false))) = true := by decide

/-- A stream 2 of context 0 with source 1, bound to launch 0. -/
def strm : Machine.Stream := ⟨2, 0, 0x8000, 4, 0, 0, 0, 10, 5, 0, 0, 0, 4, 0, 0, 0, 0, 0, 0, 0, none, [⟨1, 0, false, 0, 0⟩], [], [], [], none, some 0⟩
def streamed : State := { m0 with streams := [strm] }
/-- StreamWords: a known source and an unknown one; a launch bound to a stream; the two kinds of activation. -/
theorem witness_StreamWords : (let s := cmd streamed 0x102 0 0 0
      (s.U 8).toNat < 4096 ∧ s.streams.find? (fun y => y.n = (s.U 8).toNat % 256) = some strm ∧ strm.ctx = s.ctx.id ∧ (∃ q ∈ strm.sources, q.n = (s.U 8).toNat / 256 % 16) ∧
        (s.sops.filter fun x => x.2.1.core = s.core.id).length < 8) ∧
    (let s := cmd streamed 2 0 0 0; (s.U 8).toNat < 256 ∧ s.streams.find? (fun x => x.launch = some s.blk.launch && x.ctx = s.ctx.id) = some strm) ∧
    m0.streams.find? (fun x => x.launch = some m0.blk.launch && x.ctx = m0.ctx.id) = none ∧ m0.blk.act = none ∧
    (⟨2, true, 3, 0, 0, []⟩ : Activation).amend = true ∧ streamed.streams.find? (fun y => y.n = (⟨2, true, 3, 0, 0, []⟩ : Activation).stream) = some strm := by decide
/-- R185: the window of a fired activation starts at window × SLIDE. -/
theorem test_swin : after (exec (.swin 8) { streamed with blk := { m0.blk with act := some ⟨2, false, 3, 0, 0, []⟩ } }) (fun t => u t 8 = 2 && u t 9 = 3 && u t 10 = 15) = true := by decide

/-- The handler warp of core 0, serving a record at 0x5000 of the warp of block (0, 0). -/
def served : Served := ⟨0x5000, ⟨0, 0, 0⟩, 0, false, 1, 0, true⟩
def firm (resume fatal : Nat) : State :=
  { m0 with
    mem := cellsWrite m0.mem 0x5000 (leBytes 7 0 ++ leBytes 1 fatal ++ leBytes 8 0 ++ leBytes 8 resume)
    warp := { m0.warp with key := ⟨0, 4, 0⟩, level := .firmware }, warps := [m0.warp]
    core := { m0.core with handling := some served, ports := Vector.replicate 4 none } }
/-- FirmwareWords: a record that resumes, one with a bad address, a fatal one; ports of other contexts; a drain's three attempts. -/
theorem witness_FirmwareWords : (firm 0x300C 0).warp.level = .firmware ∧ (firm 0x300C 0).active = true ∧ (firm 0x300C 0).core.handling = some served ∧
    (firm 0x300C 0).warp.key = ⟨(firm 0x300C 0).core.id, 4, 0⟩ ∧ served.key ≠ (firm 0x300C 0).warp.key ∧ (firm 0x300C 0).rdN (0x5000 + 7) 1 % 2 = 0 ∧ served.seq = false ∧
    (firm 0x300C 0).rdN (0x5000 + 16) 8 % 12 = 0 ∧ (firm 0x3004 0).rdN (0x5000 + 16) 8 % 12 ≠ 0 ∧ (firm 0 1).rdN (0x5000 + 7) 1 % 2 = 1 ∧
    ((firm 0x300C 0).warps.find? (fun x => x.key = served.key)).isSome = true ∧
    ((firm 0 0).allCores.all fun c => c.ports.toList.all fun x => match x with | some (k, _) => !(firm 0 0).runsFor (firm 0 0).ctx.id k | none => true) = true ∧
    (m0.allCores.all fun c => c.ports.toList.all fun x => match x with | some (k, _) => !m0.runsFor m0.ctx.id k | none => true) = false ∧
    (firm 0 0).core.drainUntil = none ∧ ((firm 0 0).ops.filter fun o => o.key = (firm 0 0).warp.key && o.cls = .ax).length < 63 ∧
    (((firm 0 0).U 8).toNat % 1024 < 640 ∧ ((firm 0 0).U 9).toNat < 756) := by decide
theorem witness_FirmwareWords_drain : (let s : State := { (firm 0 0) with core := { (firm 0 0).core with drainUntil := some 0, drainFrom := 1 }, warp := (firm 0 0).warp.setSplit 0 { (firm 0 0).split with wait := some .retry } }
      s.core.drainUntil ≠ none ∧ s.ops = [] ∧ s.split.wait = some .retry ∧ Memory.wf s = true ∧ (∀ i < 4, s.inReserve (.mem (0x7000 + i) 0) = false)) ∧
    (let s := m0.issues 0 .cp (.cpy false 0 0 false 1 16 0) 0; ∃ o ∈ s.ops, o.ctx = s.ctx.id ∧ o.key ≠ ⟨s.core.id, 4, 0⟩ ∧ o.kind.isCopy = true ∧ o.id < s.nextId + 1 ∧ o.done = false ∧ o.cancelled = false) := by decide
/-- FirmwareWords: a drain whose log has one entry, and its place; a `tlbinv` with and without a translated access under way. -/
theorem witness_FirmwareWords_log : (let s : State := { (firm 0 0) with ops := [{ (m0.issues 0 .cp (.cpy false 0 0 false 1 16 0) 0).ops.headD ⟨0, ⟨0, 0, 0⟩, 0, 0, .user, .cp, .accrd, noCmd, false, false, 0, [], none, 0⟩ with done := true }] }
      (s.ops.filter fun o => o.ctx = s.ctx.id && o.key != ⟨s.core.id, 4, 0⟩ && o.kind.isCopy).length = 1 ∧ (∀ o ∈ s.ops, o.done = true ∨ o.cancelled = true) ∧
      (∀ i < 4, gives (place s (progAccess .firmware false true 0) (0x7000 + BitVec.ofNat 64 (8 * i)) 8) (.mem (0x7000 + 8 * i) 0) = true)) ∧
    (∀ o ∈ (firm 0 0).ops, o.done = true) ∧ (∃ o ∈ (m0.issues 0 .gs (.gather 4 9 []) 0).ops, o.done = false ∧ o.kind = .gather 4 9 []) ∧
    (let s := (firm 0 0).sreg 8 700; ¬((s.U 8).toNat % 1024 < 640)) := by decide
/-- R195: the served warp goes on at its resume address. -/
theorem test_rte : after (exec .rte (firm 0x300C 0)) (fun t => (t.getWarp ⟨0, 0, 0⟩).any fun w => (w.splitAt 0).pc = 0x300C) = true ∧
    after (exec .rte m0) (fun t => t.core.records.map (·.cause) = [3]) = true := by decide

/-- A sequencer at 0x6000 in a section of 32 bytes, with two filled slots and the counter 1 at n. -/
def seqd (n : Half) (q : Seq → Seq) : State :=
  { slotted [half 0, half 1] with
    blk := { (slotted [half 0, half 1]).blk with
      bars := 1, barrier := [⟨1, true, 1, true, 0, 0, false, 0, false, false⟩]
      seq := q { Seq.none with present := true, base := 0x6000, len := 32, pc := 0x6010, c := Seq.none.c.setIfInBounds 1 n, ended := false } } }
/-- MatrixWords: jumps inside the section, at its first and last word, and outside; a legal pair of slots, and each thing that stops it. -/
theorem witness_MatrixWords_jumps : (seqd 1 id).active = true ∧
    (let q := (seqd 1 id).blk.seq; (0x7FFFF0#23).toNat % 4 = 0 ∧ q.base.toNat ≤ (q.pc + (0x7FFFF0#23).signExtend 64).toNat ∧ (q.pc + (12#23).signExtend 64).toNat < q.base.toNat + q.len ∧
      ¬((q.pc + (16#23).signExtend 64).toNat < q.base.toNat + q.len) ∧ ¬(q.base.toNat ≤ (q.pc + (0x7FFFEC#23).signExtend 64).toNat)) := by decide
theorem witness_MatrixWords_mmac : (let s := seqd 1 id
      (0#10).toNat < s.blk.acc ∧ 1 < s.blk.slots ∧ s.core.accBusy = false ∧ s.core.accown = BitVec.ofNat 3 (4 + s.blk.slot) ∧ s.blk.partner 0 = false ∧ s.blk.partner 1 = false ∧
        (s.blk.oslot 0).valid = true ∧ (s.blk.oslot 1).valid = true ∧ hdrFmt (s.blk.oslot 0).hdr = 0 ∧ (s.blk.tile 0).int = decide (9 ≤ 0) ∧
        (s.blk.oslot 0).ahead.claimed = true ∧ s.blk.joinPairs = s.blk ∧ (s.blk.oslot 0).filled = true ∧ (s.blk.oslot 0).stamp = some ((s.blk.oslot 0).hdr.toNat / 256 % 4) ∧ s.blk.seq.arrayFree ≤ s.clock ∧ (∀ x ∈ s.blk.oslots, x.events = []) ∧
        (∀ f ∈ s.blk.seq.flights, f.tile ≠ 0) ∧ s.blk.acc ≤ (2#10).toNat) ∧
    (OSlot.valid ⟨0, true, 0x0000000C, 0, false, false, none, [], [], 0, 0, []⟩ = false ∧ OSlot.filled ⟨0, true, 0, 0, false, false, none, [], [], 0, 0, []⟩ = false) ∧
    (seqd 1 fun q => { q with arrayFree := 9 }).clock < (seqd 1 fun q => { q with arrayFree := 9 }).blk.seq.arrayFree := by decide
theorem witness_MatrixWords_barriers : (let s := seqd 1 id
      s.blk.barrier[(0#4).toNat]? = some ⟨1, true, 1, true, 0, 0, false, 0, false, false⟩ ∧ s.blk.seq.flights = [] ∧ (∀ x ∈ s.blk.oslots, ∀ e ∈ x.events, e.who ≠ none) ∧ (0#4).toNat < s.blk.bars ∧
        s.blk.seq.waiting = none ∧ s.blk.seq.late = none ∧ (∀ b ∈ s.blk.barrier, b.abn = false ∧ b.wait = 0 ∧ b.waitSeq = false)) ∧
    (let b : Bar := ⟨1, true, 1, true, 0, 0, true, 0, false, false⟩; b.memSeq = true ∧ b.arrSeq = true ∧ (b.arr ≠ b.mem ∨ b.arrSeq ≠ b.memSeq) ∧ b.abn = false ∧ b.wait = 0 ∧ b.waitSeq = false) ∧
    (seqd 1 fun q => { q with late := some (0, 0, false) }).blk.seq.late ≠ none ∧ (0#8 : BitVec 8) = 0 ∧ (3#8 : BitVec 8) ≠ 0 ∧
    (seqd 1 fun q => { q with waiting := some (0, 0) }).blk.seq.waiting = some (0, 0) ∧ (seqd 1 fun q => { q with flights := [⟨9, 0, 0, 1, false, 0⟩] }).blk.seq.flights ≠ [] := by decide
/-- R171: the worked loop goes back while c1 is not 0, and `mdec` stops at 0. -/
theorem test_mbnz : after (exec (.mbnz 1 0x7FFFF0) (seqd 1 id)) (fun t => t.blk.seq.pc = 0x6000) = true ∧ after (exec (.mbnz 1 0x7FFFF0) (seqd 0 id)) (fun t => t.blk.seq.pc = 0x6014) = true ∧
    after (exec (.mdec 1) (seqd 0 id)) (fun t => t.blk.seq.c[1] = 0) = true := by decide
/-- R168, R166: an `mmac` occupies the array for 16 cycles. -/
theorem test_mmac : after (exec (.mmac 0 0 1) (seqd 1 id)) (fun t => t.blk.seq.flights = [⟨15, 0, 0, 1, false, 0⟩] && t.blk.seq.arrayFree = 16 && t.blk.oslots.map (·.readers) = [1, 1]) = true := by decide

/-! ## Witnesses and tests: events

`ev` is the machine with nobody loaded; `(named me)` gives it a name table. -/

def onW (f : Warp → Warp) : State := { ev with warps := ev.warps.map f }
def onB (f : Block → Block) (s : State) : State := { s with blks := s.blks.map f }
def vres : Warp → Warp := fun w => { w with pend := [⟨4, none, false, true, .u 6, allLanes, splat 9⟩, ⟨5, some 0, true, false, .u 7, allLanes, splat 8⟩] }
def felo (full : List Nat) : State :=
  onB (fun b => { b with full := full, scratch := [(0, 7)] }) { onW (fun w => { w with pend := [⟨4, none, false, true, .vf 3, 1, zeroVec⟩] }) with
    cores := [], ops := [⟨9, ⟨0, 0, 0⟩, 0, 0, .user, .none, .feload 4 true 4 [(0, 0, 0, 0)] 1, noCmd, false, false, 0, [], none, 0⟩] }

/-- ResultEvents: a fixed and a VAR result in flight, one that a send keeps open, a full-empty load before and after its granule is full. -/
theorem witness_ResultEvents_results : ev.active = false ∧ ((onW vres).getWarp ⟨0, 0, 0⟩).isSome = true ∧ (onW vres).ops = [] ∧
    (∀ x ∈ (onW vres).sends, x.id ≠ 4) ∧ (∀ x ∈ (onW vres).sops, x.1 ≠ 4) ∧ (∃ x ∈ ({ onW vres with sends := [⟨4, some 0, some ⟨0, 0, 0⟩, 6, .wake, 5, true, 0, 0, none, none⟩] } : State).sends, x.id = 4) := by decide
/-- ResultEvents: a number that a stream operation, a snapshot or a gather keeps open; a pair of results in flight that arrive together. -/
theorem witness_ResultEvents_open : (∃ x ∈ ({ ev with sops := [(4, ⟨0, 0, 0⟩, 0, .absent)] } : State).sops, x.1 = 4) ∧ (∃ o ∈ (opd (op1 (.gather 4 4 []) .gs)).ops, o.kind = .gather 4 4 []) ∧
    (∃ o ∈ (opd (op1 (.wsnap 0 [] [] 0 4) .cp)).ops, o.kind = .wsnap 0 [] [] 0 4) ∧ (∃ p ∈ (vres m0.warp).pend, p.id = 4 ∧ p.due = none) ∧ (∀ p ∈ (vres m0.warp).pend, p.id ≠ 6) := by decide
theorem test_results : after (exec (.resultWriteback ⟨0, 0, 0⟩) (onW vres)) (fun t => t.warps.map (fun w => (w.readU 7, w.readU 6, w.pend.length)) = [(8, 0, 1)]) = true ∧
    after (exec (.loadDataArrival ⟨0, 0, 0⟩ 4) (onW vres)) (fun t => t.warps.map (fun w => (w.readU 6, w.pend.length)) = [(9, 1)]) = true := by decide
theorem witness_ResultEvents_fe : (∃ c ∈ [(0, 0, 0, 0)], (felo []).isFull (c.2.1, c.2.2.1, c.2.2.2 / 16) = false) ∧ (felo [0]).isFull (0, 0, 0) = true ∧
    (felo [0]).poisoned (.scratch 0 0 0) 4 = false ∧ (felo [0]).cores = [] ∧ ((felo [0]).getWarp ⟨0, 0, 0⟩).any (fun w => !w.exited && w.pend.all (fun p => p.id = 4 && p.due = none) && w.dq.toList.all (·.isEmpty)) = true ∧
    after (exec (.loadDataArrival ⟨0, 0, 0⟩ 4) (felo [0])) (fun t => t.ops = [] && !t.isFull (0, 0, 0) && t.warps.all fun w => w.vfix[3][0] = 7) = true := by decide
/-- An integer `mmac` of 3 × 5 in row 0, column 0. -/
def mac : State :=
  { seqd 1 (fun q => { q with flights := [⟨0, 0, 0, 1, false, 0⟩] }) with
    blk := { (seqd 1 fun q => { q with flights := [⟨0, 0, 0, 1, false, 0⟩] }).blk with
      oslots := [{ half 0 with hdr := 9, img := [(0, 3)] }, { half 1 with hdr := 9, img := [(0, 5)] }] } }.unload
theorem witness_ResultEvents_mmac : (mac.getBlk 0 0).any (fun b => b.seq.flights = [⟨0, 0, 0, 1, false, 0⟩]) = true ∧ 0 ≤ mac.clock ∧ mac.fu.errLen = 0 ∧ 9 ≤ hdrFmt (9#32) ∧
    (mac.getBlk 0 0).any (fun b => (mmacRow zeroVec (b.oslot 0) (b.oslot 1) 0 false)[0] = 15) = true := by decide
/-- R39: a sum of 1 and 2, and what its premises ask. -/
theorem witness_ResultEvents_sum : ([⟨false, 1, 0⟩, ⟨false, 1, 1⟩] : List Dy) ≠ [] ∧ (∀ d ∈ ([⟨false, 1, 0⟩, ⟨false, 1, 1⟩] : List Dy), d.man ≠ 0) ∧
    fp32.decode (0x3F800000#32).toNat = .num ⟨false, 0x800000, -23⟩ ∧ matrixSum 0x3F800000 [.num ⟨false, 1, 1⟩] = 0x40400000 := by decide

/-- EngineEvents: an operation with nothing left to do, a copy of two units, one that is suspended, and cells in each state. -/
theorem witness_EngineEvents_ops : (opd (op1 .accrd .ax)).ops = op1 .accrd .ax :: [] ∧ (opd (op1 .accrd .ax)).cores = [] ∧ (op1 .accrd .ax).token = none ∧ (op1 .accrd .ax).key.core < 1024 ∧
    ((opd (op1 .accrd .ax)).getWarp (op1 .accrd .ax).key).isSome = true ∧ ((opd (op1 .accrd .ax)).getBlk 0 0).any (fun b => b.oslots = [] && cellsWf b.scratch) = true ∧ ((opd (op1 .accrd .ax)).getCtx 0).isSome = true ∧
    (∀ j < 2, gives (place ((opd (op1 .accrd .ax)).load ⟨0, 0, 0⟩ 0 0 0) (progAccess .user true false 2) (BitVec.ofNat 64 (0x4000 + 16 * j)) 16) (.mem (0x4000 + 16 * j) 0) = true) ∧
    (opd (op1 .accrd .ax)).poison = [] ∧ (∀ x ∈ (opd (op1 .accrd .ax)).blks, x.spoison = []) ∧ (opd (op1 .accrd .ax)).clines = [] ∧
    ({ op1 .accrd .ax with token := some 8 } : EngOp).token = some 8 ∧ (opd (op1 .accrd .ax)).fu.recs = [] := by decide
theorem test_copy : after (exec (.engineOpComplete 3) { opd (op1 (.cpy false 0x4000 32 false 1 32 0) .cp) with mem := cellsWrite m0.mem 0x4010 [1, 2] })
    (fun t => t.ops = [] && t.blks.all fun b => b.scratch = [(48, 1), (49, 2)] && b.full = [2, 3]) = true := by decide
def cell (st count next : Nat) : State :=
  { ev with cores := [], ops := [op1 (.fold false 2 0 1 (splat 0x40000000) false) .cl], clines := [⟨2, st, false, false, count, next, 0x3F800000, 0, 0, [], [], false⟩] }
theorem witness_EngineEvents_cells : ((cell 2 3 3).cline 2).st = 2 ∧ ((cell 1 3 0).cline 2).st = 1 ∧ ((cell 1 3 0).cline 2).owners.length < 64 ∧ 0 * 32 + 0 < ((cell 1 3 0).cline 2).count ∧
    ((cell 1 3 0).cline 2).queue = [] ∧ (1#32 <<< 0 : Word) = 1 ∧ ((cell 1 500 0).cline 2).next + 64 ≤ 3 * 32 + 0 ∧ 3 * 32 + 0 < ((cell 1 500 0).cline 2).count ∧
    64 ≤ (List.replicate 64 ((0 : Nat), (⟨0, 0, 0⟩ : WKey))).length := by decide
/-- EngineEvents: a cell that the operation found open and has completed since, and one that it did not find open. -/
theorem witness_EngineEvents_found : (EngKind.fold false 2 0 1 zeroVec true) ≠ .fold false 2 0 1 zeroVec false ∧ ((cell 3 3 3).cline 2).st = 3 ∧ ((cell 1 3 0).getWarp ⟨0, 0, 0⟩).any (fun w => !w.exited) = true ∧
    ((cell 1 3 1).cline 2).next = 0 * 32 + 1 ∧ (∀ l ∈ (opd (op1 .accrd .ax)).clines, l.poison = false) := by decide
/-- R236: 1 + 2 is folded, and the cell waits for its next key. -/
theorem test_fold : after (exec (.lauterContribution 3) (cell 1 3 0)) (fun t => (t.cline 2).sum = 0x40400000 && (t.cline 2).next = 1 && (t.cline 2).arrived = 1 && (t.cline 2).st = 1) = true ∧
    after (exec (.lauterContribution 3) (cell 1 1 0)) (fun t => (t.cline 2).st = 2) = true ∧
    after (exec (.lauterContribution 3) (cell 2 1 1)) (fun t => (t.cline 2).stray) = true := by decide
/-- EngineEvents: a ring with room, one that is full, a spilled frame on top, and its refill from the cask at 0x10000. -/
theorem witness_EngineEvents_frames : (let w : Warp := { m0.warp with w := 64, links := [⟨0x3000, 16, false⟩] }
      w.rack = none ∧ (∀ j < 4, (w.splitAt j).wait = none) ∧ w.w - 16 < 48 + ((w.links.filter fun l => !l.out).map (·.k)).sum ∧ w.links = [] ++ [⟨0x3000, 16, false⟩]) ∧
    (let w : Warp := { m0.warp with w := 96 }; 48 + ((w.links.filter fun l => !l.out).map (·.k)).sum ≤ w.w - 16) ∧
    (let w : Warp := { m0.warp with w := 96, links := [⟨0x3000, 8, true⟩], cask := 0x10000, rack := some ⟨false, 1, 8, 0, none, none⟩ }
     w.links = ⟨0x3000, 8, true⟩ :: [] ∧ 48 + ((w.links.filter fun l => !l.out).map (·.k)).sum + 8 ≤ w.w - 16 ∧ 0 < w.w ∧ w.w ≤ 176 ∧ 8 ≤ w.w ∧ w.wbase < w.w ∧ w.rack = some ⟨false, 0 + 1, 8, 0, none, none⟩) := by decide
theorem witness_EngineEvents_refill : ∀ i ≤ 8 * 8, gives (translate { ev with mem := cellsWrite ev.mem 0x2000 [0xEF] } 0x1000 ⟨true, false, false, false, true, 3⟩ (0x10000 + 0 * 6160 + 16 * i)) (0x10000 + 16 * i, 0) = true := by decide

/-- A signal of 4 in flight to entry 5 of domain 0 from domain d. -/
def sig (d : Half) (op : SendOp) (gen : Half) : Send := ⟨4, some 0, some ⟨0, 0, 0⟩, 6, op, 5, false, gen, d, none, none⟩
def hub (x : Send) (e : NameEntry) : State := { dir ev with names := [e], sends := [x], warps := ev.warps.map vres }
/-- HubEvents: an entry, a sender of another domain, a stale generation, a dead entry, counts at the limit, messages with and without a buffer. -/
theorem witness_HubEvents_sends : (hub (sig 0 (.sig 4) 7) me).sends.find? (fun y => y.id = 4) = some (sig 0 (.sig 4) 7) ∧ (hub (sig 0 (.sig 4) 7) me).remote 5 = false ∧
    (hub (sig 0 (.sig 4) 7) me).entry 5 = some me ∧ me.st ≠ 4 ∧ me.st ≠ 6 ∧ (sig 0 (.sig 4) 7).op.isMsg = false ∧ (5#64).extractLsb' 48 16 = (sig 0 (.sig 4) 7).domain ∧
    ¬((5#64).extractLsb' 48 16 = (sig 1 (.sig 4) 7).domain ∨ ({ me with opn := false } : NameEntry).opn = true) ∧ me.gen ≠ 8 ∧ (hub (sig 0 (.sig 4) 7) { me with st := 5 }).entry 5 = some { me with st := 5 } ∧
    2 ^ 32 ≤ (2 ^ 32 - 4) + 4 ∧ 3 + 4 < 2 ^ 32 ∧ me.posts = [] ∧ me.receipts.length < 16 ∧ me.count < 2 ^ 32 - 1 ∧
    ((hub (sig 0 (.sig 4) 7) me).getWarp ⟨0, 0, 0⟩).any (fun w => w.pend.filter (fun p => p.id = 4) = [⟨4, none, false, true, .u 6, allLanes, splat 9⟩]) = true := by decide
theorem test_resolve : after (exec (.sendResolve 4) (hub (sig 0 (.sig 4) 7) me)) (fun t => t.names.map (·.count) = [7] && t.sends = [] && t.warps.all fun w => w.readU 6 = 0) = true ∧
    after (exec (.sendResolve 4) (hub (sig 0 (.sig 4) 8) me)) (fun t => t.names.map (·.count) = [3] && t.warps.all fun w => w.readU 6 = 3) = true := by decide
theorem test_deliver : after (exec (.messageDelivery 4) (hub (sig 0 (.msg 16 9 (List.replicate 16 1) []) 7) { me with posts := [⟨0x4000, 16, 2⟩], receipts := [] }))
    (fun t => t.rdN 0x4000 4 = 0x01010101 && t.names.all fun e => e.receipts = [⟨2, 0, 16, 9, 0⟩] && e.count = 4 && e.posts = []) = true := by decide
/-- HubEvents: an entry in transit, a host thread's with its wake word, a host's own send, and names of another module with links up, all down,
and a fenced one; the order of one warp's stream operations on one source. -/
theorem witness_HubEvents_places : (hub (sig 0 (.sig 4) 7) { me with st := 4 }).entry 5 = some { me with st := 4 } ∧ (hub (sig 0 (.sig 4) 7) { me with st := 6, loc := 0xB000 }).entry 5 = some { me with st := 6, loc := 0xB000 } ∧
    (sig 0 (.sig 4) 7).host = none ∧ ({ sig 0 (.sig 4) 7 with host := some 0xA040 } : Send).host = some 0xA040 ∧ (hub (sig 0 (.sig 4) 7) me).ck = none ∧ ev.ck = none ∧
    (let s : State := { hub (sig 0 (.sig 4) 7) me with fab := { ev.fab with homeModule := 1 } }
     s.remote 5 = true ∧ s.nameHome 5 = 0 ∧ s.fab.homeModule ∉ s.fab.revoked ∧ s.nameHome 5 ∉ s.fab.revoked ∧ (∃ l ∈ s.fab.links, l.up = true)) ∧
    (∀ l ∈ (List.replicate 18 ⟨false, []⟩ : List LinkSt), l.up = false) ∧ 0 ∈ ({ ev.fab with revoked := [0] } : Fabric).revoked ∧
    (StreamOp.swm 2 1 5).ordered (.sidle 2 1) = true ∧ (StreamOp.swm 2 1 5).ordered (.sidle 2 3) = false := by decide
/-- R282: a signal to a host thread's entry shows in its wake word; one to an entry in transit waits. -/
theorem test_resolve_host : after (exec (.sendResolve 4) (hub (sig 0 (.sig 4) 7) { me with st := 6, loc := 0xB000 })) (fun t => t.rdN 0xB000 8 = 7 + 7 * 2 ^ 32 + 2 ^ 48 && t.sends = []) = true ∧
    after (exec (.sendResolve 4) (hub (sig 0 (.sig 4) 7) { me with st := 4 })) (fun t => t.sends.length = 1) = true := by decide
/-- HubEvents: a bounced message with its fault open and served, the places of a store, and names of host threads. -/
def bnc : Bounce := ⟨6, 5, ⟨0x4000, 16, 2⟩, [1], 16, false, 0, 0, 0, []⟩
theorem witness_HubEvents_bounces : ({ ev with bounces := [bnc] } : State).bounces = [bnc] ∧ ev.fu.recs = [] ∧ true ∉ bnc.bad ∧
    (match storeBytes ({ ev with bounces := [bnc] } : State) (((ev.getCtx bnc.ctx).map (·.root)).getD 0) 4 bnc.post.addr.toNat bnc.bytes with | .ok u => (u.entry bnc.name).isNone | _ => false) = true ∧
    (∃ r ∈ ({ ev.fu with recs := [⟨1, 0, 0, 0, 4, 0, 2, 0x4000, some (.bounce 6), false⟩] } : FaultUnit).recs, r.who = some (.bounce bnc.id)) := by decide
theorem witness_HubEvents_names : ((dir ev).entryRaw 5).any (fun e => e.st = 0) = true ∧ (0x10#64).toNat % 8 = 0 ∧ (9#64).toNat % 8 ≠ 0 ∧ (ev.entryRaw 5) = none ∧
    ((hub (sig 0 .wake 7) { me with st := 6 }).entry 5).any (fun e => e.st = 6) = true ∧ ev.names = [] ∧ (hub (sig 0 .wake 7) me).nameAddr 5 = some (0x9000 + 64 * 5) ∧ cellsWf (hub (sig 0 .wake 7) me).mem = true ∧
    ev.sends = [] ∧ ({ ev with sops := [(4, ⟨0, 0, 0⟩, 6, .absent)] } : State).sops = [(4, ⟨0, 0, 0⟩, 6, .absent)] := by decide

/-- A host thread's entry 5, and a command that has been taken from slot 1 of the host page at 0xA000. -/
def cmdBytes (w0 : Nat) (a b arg : Nat) : List Byte := leBytes 4 (w0 + 2 ^ 31) ++ leBytes 4 0 ++ leBytes 8 a ++ leBytes 8 b ++ leBytes 8 arg ++ leBytes 8 0 ++ leBytes 8 0x10 ++ leBytes 8 5 ++ leBytes 8 0
def hst (w0 : Nat) (a b arg : Nat) (es : List NameEntry) : State :=
  { dir ev with
    names := es, ctxs := ev.ctxs.map fun x => { x with hostPage := 0xA000 }
    mem := cellsWrite (dir ev).mem 0xA040 (cmdBytes w0 a b arg)
    hostq := [⟨0, 1, 0xA040, cmdBytes w0 a b arg⟩] }
def host5 : NameEntry := { me with st := 6 }
/-- HostCommands: a command, none, an op beyond the list, a caller that is no host thread, and the objects of the ops. -/
theorem witness_HostCommands_page : cellsWf (hst 1 6 4 7 [host5]).mem = true ∧ ((hst 1 6 4 7 [host5]).getCtx 0).any (fun x => x.hostPage ≠ 0) = true ∧ (hst 1 6 4 7 [host5]).hostq = ⟨0, 1, 0xA040, cmdBytes 1 6 4 7⟩ :: [] ∧
    (∀ i < 64, (hst 1 6 4 7 [host5]).inReserve (.mem (0xA040 + i) 0) = false) ∧ (∀ y ∈ (hst 1 6 4 7 [host5]).sends, y.id ≠ (hst 1 6 4 7 [host5]).nextId) ∧
    leNat ((cmdBytes 1 6 4 7).take 4) % 256 = 1 ∧ leNat ((cmdBytes 0 6 4 7).take 4) % 256 = 0 ∧ 10 < leNat ((cmdBytes 11 6 4 7).take 4) % 256 ∧ leNat ((cmdBytes (2 ^ 11) 6 4 7).take 4) / 2 ^ 11 % 2 ^ 20 ≠ 0 ∧
    leNat (((cmdBytes 1 6 4 7).drop 48).take 8) = 5 ∧ (hst 1 6 4 7 [host5]).entry 5 = some host5 ∧ host5.st = 6 ∧ host5.ctx = 0 ∧
    (hst 1 6 4 7 [host5]).remote 6 = false ∧ (hst 1 6 4 7 [host5]).entry 6 = none ∧ ((hst 1 6 4 7 [me]).entry 5).all (fun e => decide (e.st ≠ 6 ∨ e.ctx ≠ 0)) = true ∧
    ((hst 1 6 4 7 [host5, { me with name := 6 }]).entry 6) = some { me with name := 6 } ∧
    (hst 1 6 4 7 [host5, { me with name := 6, st := 4 }]).entry 6 = some { me with name := 6, st := 4 } ∧ ({ hst 1 6 4 7 [host5] with fab := { ev.fab with homeModule := 1 } } : State).remote 6 = true := by decide
theorem witness_HostCommands_ops : ev.wtab.length < 8192 ∧ gives (translate (hst 6 0x4000 0 0 [host5]) 0x1000 ⟨true, false, false, true, false, 2⟩ 0x4000) (0x4000, 0) = true ∧
    leNat ((hst 6 0x4000 0 0 [host5]).readMem 0 0x4000 4) = 0 % 2 ^ (8 * 4) ∧ (0x10#64).toNat % 8 = 0 ∧ (∀ y ∈ (hst 7 0x4000 0 0 [host5]).wtab, y.ctx ≠ 0 ∨ y.va ≠ 0x4000) ∧
    (1 ≤ 16 ∧ 16 ≤ 4096 ∧ 16 % 16 = 0 ∧ 0x4000 + 16 ≤ 2 ^ 57) ∧ gives (translate (hst 8 0x4000 0 16 [host5]) 0x1000 ⟨false, true, false, true, false, 2⟩ 0x4000) (0x4000, 0) = true ∧ host5.posts.length < 8 ∧
    host5.receipts = ⟨1, 0, 16, 2, 0⟩ :: [] ∧ 2 ≤ host5.count ∧ host5.count < 9 ∧ host5.wake = true := by decide
/-- HostCommands: bounce pages are free, whatever their number beyond 16. -/
theorem witness_HostCommands_bounce : (hst 10 6 0x4000 16 [host5]).bounceFull = false := decide_eq_false (Nat.not_lt_zero _)
/-- The warp of block (0, 0) under the name 6, to which a `place` writes. -/
def plc : State := { hst 10 6 0x4000 (16 + 2 ^ 32 * 64) [host5, { me with name := 6 }] with warps := ev.warps.map fun w => { w with name := 6 } }
theorem witness_HostCommands_place : plc.entry 6 = some { me with name := 6 } ∧ (plc.warps.find? (fun w => w.name = 6 && w.level = .user && !w.exited)).any (fun w => w.key = ⟨0, 0, 0⟩) = true ∧
    (plc.getBlk 0 0).any (fun b => cellsWf b.scratch && decide (64 + 16 * 1 ≤ b.part)) = true ∧ plc.poison = [] ∧ leNat (((cmdBytes 10 6 0x4000 (16 + 2 ^ 32 * 64)).drop 24).take 4) = 16 * 1 ∧
    leNat (((cmdBytes 10 6 0x4000 (16 + 2 ^ 32 * 64)).drop 28).take 4) = 64 ∧ plc.fu.recs = [] ∧ me.st = 1 ∧ (ev.blks.all fun b => b.life != .saved) = true ∧ (hst 10 6 0x4000 17 [host5]).hostq.all (fun h => leNat ((h.bytes.drop 24).take 4) % 16 ≠ 0) = true ∧
    (∀ j < 1, gives (translate plc 0x1000 ⟨true, false, false, true, false, 2⟩ (0x4000 + 16 * j)) (0x4000 + 16 * j, 0) = true) := by decide
theorem test_host : after (exec (.hostNsig 0 1) (hst 1 6 4 7 [host5, { me with name := 6 }])) (fun t => t.rdN 0xA044 4 = 0 && t.rdN 0xA040 4 = 1 && (t.entry 6).any (·.count = 7)) = true ∧
    after (exec (.hostTake 0 1) (hst 4 6 2 7 [host5])) (fun t => t.rdN 0xA044 4 = 0 && t.rdN 0xA060 8 = 1) = true := by decide
theorem test_place : after (exec (.hostPlace 0 1) { plc with mem := cellsWrite plc.mem 0x4000 [7] }) (fun t => t.rdN 0xA044 4 = 0 && t.blks.all fun b => b.scratch = [(64, 7)] && b.full = [4]) = true := by decide

/-! ## Witnesses and tests: launches, pre-emption, faults, streams and the module -/

/-- Arbitration: a free port and one ready split; a held port; the handler's split, and splits that have lost choices. -/
def frees : State := { ev with cores := ev.cores.map fun c => { c with ports := Vector.replicate 4 none } }
theorem witness_Arbitration : frees.active = false ∧ 0 < 4 ∧ ((frees.getCore 0).ports[0]?) = some none ∧ ((frees.getCore 0).portAt[0]?).getD 0 ≤ frees.clock ∧
    (frees.candidates 0 0).length = 1 ∧ (frees.warps.map (·.key)).Nodup ∧ (ev.getCore 0).ports[0]? = some (some (⟨0, 0, 0⟩, 0)) ∧ (frees.candidates 0 1).length = 0 ∧
    ((frees.candidates 0 0).all fun a => (a.1.splitAt a.2).lost < 16 && a.1.key.slot != 4 && (a.1.splitAt a.2).late.isEmpty) = true ∧
    (({ frees with warps := frees.warps.map fun (w : Warp) => w.setSplit 0 { w.splitAt 0 with lost := 16 } }.candidates 0 0).any fun a => 16 ≤ (a.1.splitAt a.2).lost) = true ∧
    (({ firm 0 0 with issue := m0.issue }.unload.candidates 0 0).any fun a => a.1.key.slot = 4) = true := by decide
theorem test_arbitration : after (exec (.runArbitration 0 0) frees) (fun t => (t.getCore 0).ports[0] = some (⟨0, 0, 0⟩, 0)) = true := by decide

/-- A context descriptor at 0xC000, with a handler at entry e, for context 1. -/
def desc (root e : Nat) : State :=
  { ev with mem := cellsWrite ev.mem 0xC000 (leBytes 8 root ++ leBytes 2 3 ++ leBytes 2 9 ++ leBytes 2 0 ++ leBytes 2 4 ++ leBytes 8 e ++ leBytes 8 0 ++ leBytes 4 0x20000 ++ leBytes 4 0x20000) }
/-- ContextsAndLaunches: a descriptor that fits and two that do not; a context that is there and one that is not. -/
theorem witness_ContextsAndLaunches_contexts : 1 < 256 ∧ (0xC000#64).toNat % 128 = 0 ∧ ((desc 0x1000 24).getCtx 1).isNone = true ∧ (desc 0x1000 24).rdN 0xC000 8 % 4096 = 0 ∧
    (desc 0x1000 24).rdN (0xC000 + 14) 2 = 4 ∧ (desc 0x1000 24).rdN (0xC000 + 16) 8 % 12 = 0 ∧ (desc 0x1000 24).rdN (0xC000 + 32) 4 % 2 ^ 17 = 0 ∧
    (desc 0x1000 24).rdN (0xC000 + 32) 4 + (desc 0x1000 24).rdN (0xC000 + 36) 4 ≤ 2 ^ 26 ∧ (desc 0x1000 24).rdN (0xC000 + 56) 8 % 4096 = 0 ∧ (desc 0x1000 24).rdN (0xC000 + 64) 8 % 4096 = 0 ∧
    (desc 0x1001 24).rdN 0xC000 8 % 4096 ≠ 0 ∧ (desc 0x1000 25).rdN (0xC000 + 16) 8 % 12 ≠ 0 ∧ ((desc 0x1000 24).getCtx 0).any (·.live) = true := by decide
theorem test_context : after (exec (.contextCreate 1 0xC000) (desc 0x1000 24)) (fun t => (t.getCtx 1).any fun x => x.live && x.root = 0x1000 && x.domain = 3 && x.t1 = 200 && x.cbase = 0x20000) = true ∧
    after (exec (.contextReset 0 true) (desc 0x1000 24)) (fun t => (t.getCtx 0).any (fun x => !x.live && x.csize = 0) && t.blks = [] && t.warps = []) = true := by decide

/-- A launch record at 0xD000 of n blocks, in queue 0, with a dependence. -/
def record (n nw dep : Nat) : State :=
  { dir ev with
    queues := [⟨0, 0xD000, 2, 1, 0, 4, 5, none⟩]
    mem := cellsWrite (dir ev).mem 0xD000 (leBytes 8 0x3000 ++ leBytes 16 0 ++ leBytes 4 n ++ leBytes 1 nw ++ leBytes 1 3 ++ leBytes 1 16 ++ leBytes 1 64 ++ leBytes 12 0 ++ leBytes 4 4 ++
      leBytes 8 0 ++ leBytes 8 1 ++ leBytes 8 0 ++ leBytes 1 dep) }
def lnch (dep n : Nat) : Launch :=
  { id := 0, queue := 0, prio := 1, ctx := 0, recAddr := 0xD000, entry := 0x3000, stream := 0, streamLen := 0, card := 0x12, blocks := n, nw := 1, w := 48, fixed := 16, waitshare := 64, part := 64,
    acc := 0, slots := 0, bars := 0, clusterBars := false, standing := false, binding := 0, wlimit := 4, cask := 0, nameBase := 1, completion := 0, depKind := dep, depOp := 0, depObj := 0x4000,
    status := 2, offered := 0, finished := 0, readyAt := 0, unbound := false }
def headed (l : Launch) : State := { record 1 1 0 with queues := [⟨0, 0xD000, 2, 1, 0, 5, 5, some 0⟩], launches := [{ l with status := 1 }] }
/-- ContextsAndLaunches: a record within the limits and one of no warps; each kind of dependence, met and not. -/
theorem witness_ContextsAndLaunches_records : (record 1 1 0).queue 0 = some ⟨0, 0xD000, 2, 1, 0, 4, 5, none⟩ ∧ cellsWf (record 1 1 0).mem = true ∧ (record 1 1 0).launches = [] ∧
    (let a := 0xD000 + 128 * ((4#32).toNat % 2 ^ 2); a = 0xD000 ∧ (record 1 1 0).rdN a 8 % 12 = 0 ∧ 1 ≤ (record 1 1 0).rdN (a + 28) 1 ∧ (record 1 1 0).rdN (a + 29) 1 = 3 ∧
      (record 1 1 0).rdN (a + 41) 1 = 0 ∧ 1 ≤ (record 1 1 0).rdN (a + 44) 4 ∧ ¬(1 ≤ (record 1 0 0).rdN (a + 28) 1)) ∧
    (0xD000#64).toNat % 128 = 0 ∧ 2 ≤ 12 ∧ 1 ≤ 3 ∧ (record 1 1 0).queue 1 = none := by decide
theorem witness_ContextsAndLaunches_dependences : ((headed (lnch 0 1)).queue 0).any (fun x => x.headLaunch = some 0) = true ∧ ((headed (lnch 0 1)).launch 0).isSome = true ∧
    ((headed (lnch 0 1)).entry 1).all (fun e => e.st = 5) = true ∧ (headed (lnch 3 1)).rdN 0x4000 4 = (lnch 3 1).depOp.toNat ∧
    gives (translate (headed (lnch 3 1)) 0x1000 ⟨true, false, false, true, false, 2⟩ 0x4000) (0x4000, 0) = true ∧ (headed { lnch 1 1 with depObj := 5 }).remote 5 = false ∧
    (headed { lnch 1 1 with depObj := 5 }).entry 5 = none ∧ ({ headed (lnch 1 1) with names := [me] } : State).entry 5 = some me ∧ (0#32).toNat ≤ me.count ∧ me.count < 9 ∧ me.gen = (7#32).setWidth 16 := by decide
theorem test_launch : after (exec (.launchRecordTake 0) (record 1 1 0)) (fun t => t.launches.map (fun l => (l.status, l.blocks, l.w)) = [(1, 1, 48)] && t.rdN (0xD000 + 120) 4 = 1 && t.queues.map (·.head) = [5]) = true ∧
    after (exec (.launchRecordTake 0) (record 1 0 0)) (fun t => t.launches.map (·.status) = [4]) = true ∧
    after (exec (.launchDependenceMet 0) (headed (lnch 0 1))) (fun t => t.launches.map (·.status) = [2] && t.queues.map (·.headLaunch) = [none]) = true := by decide

/-- Three logical cores; context 0 holds a block on the first. -/
def ready3 (ls : List Launch) : State := { dir ev with fab := { ev.fab with ready := true, map := [0, 1, 2] }, launches := ls, cores := ev.cores.map fun c => { c with ports := Vector.replicate 4 none } }
/-- BlockStarts: the first core with room; an activation for a standing kernel; a saved block. -/
theorem witness_BlockStarts_admit : (ready3 [lnch 0 1]).launch 0 = some (lnch 0 1) ∧ (lnch 0 1).offered < (lnch 0 1).blocks ∧ (ready3 [lnch 0 1]).firstCore (lnch 0 1) = some 1 ∧
    (∀ m ∈ (ready3 [lnch 0 1]).launches, m.prio ≤ (lnch 0 1).prio) ∧ (∀ w ∈ (ready3 [lnch 0 1]).warps, w.key.core ≠ 1) ∧ (lnch 0 0).blocks ≤ (lnch 0 0).offered := by decide
theorem test_admit : after (exec (.blockAdmit 0 1) (ready3 [lnch 0 1])) (fun t => (t.getWarp ⟨1, 0, 0⟩).any (fun w => w.readU 0 = 0x12 && w.readU 4 = 1 && (w.splitAt 0).pc = 0x3000 && w.name = 1) &&
    t.launches.map (·.offered) = [1]) = true := by decide
def stands : State := { ready3 [{ lnch 0 1 with standing := true, offered := 1 }] with streams := [{ strm with queue := [⟨2, false, 3, 0, 0, []⟩], windows := [⟨3, 3, 2, 0⟩] }] }
def asleep (freed : Bool) : State :=
  { ready3 [lnch 0 1] with warps := [], blks := [], saved := [⟨{ ((ready3 []).blks.headD Block.none) with life := .saved, freed := freed }, (ready3 []).warps, [], false, 0, false, none⟩] }
theorem witness_BlockStarts_others : ((stands.stream 2).any fun x => x.queue = [⟨2, false, 3, 0, 0, []⟩] && x.launch = some 0 && x.running.isNone && !x.out.getLsbD 15 && x.wstate 3 = 2) = true ∧
    (stands.blks.find? (fun b => b.launch = 0 && b.life = .resident && !b.draining && b.act.isNone)).any (fun b => b.nw = 1) = true ∧ stands.stream 3 = none ∧
    ((asleep false).saved.find? (fun v => v.blk.launch = 0 && v.blk.rank = 0)).any (fun v => !v.swapped && !v.blk.freed && v.blk.core = 0 && v.warps.map (·.key.rank) = [0]) = true ∧
    (asleep false).freezing 0 = false ∧ ((asleep false).getCtx 0).any (·.live) = true ∧ (asleep false).sends = [] ∧ ((asleep false).getBlk 0 0).isNone = true := by decide
/-- A block that the launch unit has swapped out of core 1, ready since cycle 3, beside a launch that was ready in cycle r. -/
def swapped (r : Nat) : State :=
  { ready3 [{ lnch 0 2 with readyAt := r, offered := 1 }] with
    saved := [⟨{ (ready3 []).blks.headD Block.none with core := 1, rank := 0, life := .saved, freed := true }, [], [], false, 0, true, some 3⟩]
    cores := (ready3 []).cores ++ [{ Core.none with id := 1, left := [(0, [7])] }] }
/-- BlockStarts: a saved block that is ready before a launch's next one, and one after it; items that a core has kept. -/
theorem witness_BlockStarts_earlier : (swapped 4).firstCore { lnch 0 2 with readyAt := 4, offered := 1 } = some 1 ∧
    ((swapped 4).saved.all fun v => v.swapped && v.blk.core = 1 && (swapped 4).restorable v 1 && v.readyAt = some 3 && (swapped 4).turnOf v) = true ∧
    ((swapped 2).saved.all fun v => !(swapped 2).turnOf v) = true ∧ (swapped 4).kept 1 0 = [7] := by decide
/-- R271: the block that became ready first is the one that starts. -/
theorem test_ready_order : after (exec (.blockAdmit 0 1) (swapped 4)) (fun t => t.launches.map (·.offered) = [1]) = true ∧
    after (exec (.blockAdmit 0 1) (swapped 2)) (fun t => t.launches.map (·.offered) = [2] && (t.getBlk 1 0).any (fun b => b.items = [7])) = true := by decide
theorem test_restore : after (exec (.blockRestore 0 0 0) (asleep false)) (fun t => t.saved = [] && (t.getBlk 0 0).any (fun b => b.life = .resident) && (t.getWarp ⟨0, 0, 0⟩).any fun w => (w.splitAt 0).pc = 0x3000) = true := by decide
theorem test_activation : after (exec (.activationStart 2) stands) (fun t => (t.getBlk 0 0).any (fun b => b.act = some ⟨2, false, 3, 0, 0, []⟩) && (t.stream 2).any fun x => x.queue = [] && x.wstate 3 = 3) = true := by decide

/-- The warp waits in the wait table, under the name 1, and its context has a pool of 16 pages. -/
def idle (pre : Preempt) (draining : Bool) : State :=
  { ready3 [{ lnch 0 2 with offered := 1 }] with
    warps := ev.warps.map fun w => { (w.setSplit 0 { w.splitAt 0 with wait := some (.nwait 1 false) }) with name := 1 }
    blks := ev.blks.map fun b => { b with draining := draining, waitshare := 32 }
    ctxs := ev.ctxs.map fun x => { x with pool := 0x10000, poolSize := 0x20000, pre := pre, t1 := 0, t2 := 0 } }
/-- Preemption: a request that names a block; the two times; a save with room and without; a swap; a migration; a transit. -/
theorem witness_Preemption_requests : ((idle .running false).getCtx 0).any (fun x => x.live && x.pre = .running) = true ∧ ((idle .running false).blks.any fun b => b.ctx = 0 && b.life = .resident && [0].contains b.core) = true ∧
    ((idle .running false).getCtx 1).isNone = true ∧ ((idle .running false).blks.all fun b => !(b.ctx = 0 && b.life = .resident && [5].contains b.core)) = true ∧
    ((idle .draining true).getCtx 0).any (fun x => x.pre = .draining && decide (x.preSince + 19000 * x.t1 ≤ (idle .draining true).wall)) = true := by decide
theorem witness_Preemption_saves : ((idle .draining true).getBlk 0 0).any (fun b => b.draining && b.migrate.isNone && (idle .draining true).saveReady b false &&
      (((idle .draining true).getCtx 0).any fun c => (allocAreas c c.areas ((((idle .draining true).warpsOf b).filter fun w => !w.exited).map Warp.areaSize ++ [b.areaSize c.preFree])).isSome &&
        (allocAreas { c with poolSize := 0 } c.areas ((((idle .draining true).warpsOf b).filter fun w => !w.exited).map Warp.areaSize ++ [b.areaSize c.preFree])).isNone)) = true ∧
    (idle .running false).swapRule { lnch 0 2 with offered := 1 } = true ∧ ((idle .running false).swapVictim { lnch 0 2 with offered := 1 }).any (fun b => b.core = 0) = true ∧
    ((idle .running false).getBlk 0 0).any (fun b => b.life = .resident && !b.draining) = true ∧ ((asleep true).saved.find? fun v => v.blk.core = 0 && v.blk.slot = 0 && v.blk.freed).isSome = true ∧
    ({ idle .running false with names := [{ me with st := 4 }] } : State).sends = [] ∧ 0 + 38000 ≤ ({ idle .running false with wall := 38000 } : State).wall := by decide
/-- A record of context 0 that waits for the firmware handler of core 0. -/
def faulty : State := { ev with fu := { ev.fu with entry := 0x600, fqBase := 0xE000, recs := [⟨7, 0, 0, 0, 0, 0, 1, 0x123, some (.split ⟨0, 0, 0⟩ 0), false⟩] }, cores := ev.cores.map fun c => { c with records := [served] } }
/-- HandlersAndFaultQueue: a record and none; a window that is open and one that is over; a queue with room and a full one; settings that are accepted and refused. -/
theorem witness_HandlersAndFaultQueue : (faulty.getCore 0).handling = none ∧ (faulty.getCore 0).records = served :: [] ∧ (∀ w ∈ faulty.warps, w.key ≠ ⟨0, 4, 0⟩) ∧ (ev.getCore 0).records = [] ∧
    (faulty.fu.recs.find? fun r => !r.written).isSome = true ∧ (faulty.fu.fqTail - faulty.fu.fqHead).toNat < 2 ^ faulty.fu.fqLog ∧ cellsWf faulty.mem = true ∧
    2 ^ 4 ≤ ((16#32) - 0).toNat ∧ (∀ r ∈ ev.fu.recs, r.written = true) ∧ (∃ r ∈ faulty.fu.recs, r.who ≠ none) ∧ (64#64).toNat % 64 = 0 ∧ ¬((65#64).toNat % 64 = 0) ∧ (ev.getCtx 0).isSome = true ∧
    (let c : Core := { ev.core with drainUntil := some 5, handling := some served }; c.drainUntil = some 5 ∧ c.handling = some served ∧ ev.wall < 5) ∧ (∀ j < 32, faulty.inReserve (.mem (0xE000 + j) 0) = false) ∧
    served.firmware = true ∧ ({ served with firmware := false } : Served).firmware = false ∧ ({ ev.ctx with halted := true } : Ctx).halted = true ∧ served.seq = false ∧ (faulty.getWarp served.key).isSome = true := by decide
theorem test_handler : after (exec (.handlerEntry 0) faulty) (fun t => (t.getWarp ⟨0, 4, 0⟩).any (fun w => w.level = .firmware && w.readU 0 = 0x5000 && w.readU 2 = 1 && (w.splitAt 0).pc = 0x600)) = true ∧
    after (exec .faultQueueAppend faulty) (fun t => t.rdN (0xE000 + 8) 8 = 0x123 && t.rdN (0xE000 + 16) 8 = 7 && t.fu.fqTail = 1) = true := by decide

/-- A stream descriptor at 0xC000 with sources 0 and 3, windows of 10 every 5, and n overflow places. -/
def strDesc (size slide : Nat) : State :=
  { ev with mem := cellsWrite ev.mem 0xC000 (leBytes 8 0x10000 ++ leBytes 1 4 ++ leBytes 1 0 ++ leBytes 2 0 ++ leBytes 2 0 ++ leBytes 2 9 ++ leBytes 8 size ++ leBytes 8 slide ++ leBytes 8 0 ++ leBytes 8 0 ++ leBytes 8 0x20000 ++ leBytes 1 4) }
theorem witness_StreamEvents_configure : (0xC000#64).toNat % 128 = 0 ∧ (strDesc 10 5).stream 2 = none ∧ (strDesc 10 5).rdN 0xC000 8 % 64 = 0 ∧ (strDesc 10 5).rdN (0xC000 + 8) 1 = 4 ∧ (strDesc 10 5).rdN (0xC000 + 14) 2 = 9 ∧
    (strDesc 10 5).rdN (0xC000 + 16) 8 % (strDesc 10 5).rdN (0xC000 + 24) 8 = 0 ∧ (strDesc 10 5).rdN (0xC000 + 40) 8 % 12 = 0 ∧ (strDesc 10 5).rdN (0xC000 + 48) 8 % 64 = 0 ∧
    (strDesc 10 5).rdN (0xC000 + 56) 1 = 4 ∧ (strDesc 10 5).rdN (0xC000 + 60) 4 = 0 ∧ (strDesc 10 3).rdN (0xC000 + 16) 8 % (strDesc 10 3).rdN (0xC000 + 24) 8 ≠ 0 := by decide
/-- StreamEvents: an unbind while an activation runs. -/
theorem witness_StreamEvents_running : (let s : State := { stands with streams := [{ strm with running := some ⟨2, false, 3, 0, 0, []⟩ }] }
     (s.stream 2).any (fun x => x.running.isSome && x.launch = some 0) = true ∧ (s.launch 0).isSome = true) := by decide
theorem witness_StreamEvents_sources : ((stands.stream 2).any fun x => x.launch = some 0 && x.running.isNone && !x.out.getLsbD 15) = true ∧ (stands.launch 0).isSome = true ∧
    (let s : State := { ev with time19 := 19000 * 10 + 1, streams := [{ strm with launch := none, sources := [⟨1, 10, false, 0, 0⟩, ⟨2, 0, false, 7, 0⟩] }] }
     (s.stream 2).any (fun x => x.launch.isNone && x.sources.any fun q => q.n = 1 && !q.idle && q.timeout != 0 && decide (19000 * q.timeout < s.time19 - q.activity)) = true ∧
       after (exec (.sourceIdleTimeout 2 1) s) (fun t => (t.stream 2).any fun x => x.wm = 7 && x.sources.map (·.idle) = [true, false]) = true) := by decide

/-- A checkpoint of context 0 with one peer; one frozen granule, page 4. -/
def ckd (n peers : Nat) : State := { ev with mem := cellsWrite ev.mem 0xC000 (leBytes 8 0xD000 ++ leBytes 4 n ++ leBytes 12 0 ++ leBytes 4 peers) }
def ckp (phase st reserve : Nat) : State :=
  { ev with ck := some ⟨0xC000, 0x40000, phase, [⟨0, [4], st, none, 3⟩], [(3, 0)], [], reserve, 0, 0, 0, 0, [0], []⟩ }
theorem witness_Checkpoints : (ckd 0 1).ck = none ∧ 0xC000 % 64 = 0 ∧ (ckd 0 1).rdN (0xC000 + 24) 4 = 1 ∧ (ckd 0 1).rdN (0xC000 + 48) 8 % 65536 = 0 ∧ cellsWf (ckd 0 1).mem = true ∧ (ckd 0 17).rdN (0xC000 + 24) 4 = 17 ∧
    (ckp 1 0 1).ck.any (fun k => k.phase = 1) = true ∧ (∀ b ∈ (ckp 1 0 1).blks, b.draining = false) ∧ (ckp 1 0 1).sends = [] ∧ ((ckp 2 0 1).granule 0).any (fun g => g.st = 0) = true ∧
    (ckp 2 0 1).granule 1 = none ∧ ((ckp 2 0 1).frozen (4096 * 4)).isSome = true ∧ ((ckp 2 2 1).granule 0).any (fun g => g.st = 2) = true ∧
    (ckp 2 0 0).ck.any (fun k => decide (k.reserve ≤ (List.range k.cellar ++ k.grans.filterMap (·.copy)).length) && k.fenced.isEmpty && !k.peers.isEmpty) = true ∧
    (ckp 2 0 1).ck.any (fun k => decide ((List.range k.cellar ++ k.grans.filterMap (·.copy)).length < k.reserve) && decide (4 < k.base / 4096) && k.phase = 2) = true ∧
    (ckp 1 0 1).ck.any (fun k => decide (k.desc + 64 ≤ k.base / 4096 * 4096) && decide (k.base / 4096 * 4096 + 65536 * k.reserve ≤ 0x50000)) = true ∧
    (∀ j < 8, (ckp 2 0 1).inReserve (.mem (0xC000 + 32 + j) 0) = false) ∧ (ckp 2 0 1).inReserve (.mem 0x40000 0) = true := by decide
theorem test_checkpoint : after (exec (.frozenGranuleWrite 0) (ckp 2 0 1)) (fun t => (t.granule 0).any fun g => g.st = 1 && g.copy.isSome) = true ∧
    after (exec (.checkpointPeerAck 0) (ckp 2 2 1)) (fun t => t.ck.any fun k => k.phase = 3) = true := by decide

/-- A module whose spare is die 20, of 32 cores on every die. -/
def mask4 : BitVec 36 := 0x000001111
theorem witness_ModuleEvents_bringUp : ev.fab.ready = false ∧ (List.replicate 21 mask4).length = 21 ∧ 20 < 21 ∧
    (∀ d < 21, (List.replicate 21 mask4)[d]? = some mask4) ∧ (∀ k < 9, ((List.range 4).filter fun j => mask4.getLsbD (4 * k + j)).length ≤ 1) ∧
    ((List.range 36).filter fun c => mask4.getLsbD c).length = 4 := by decide
theorem witness_ModuleEvents_others : 7 ∉ ev.fab.revoked ∧ (∃ c ∈ ev.ctxs, c.live = true ∧ c.pkey = 0) ∧ (∀ c ∈ ev.ctxs, c.live = false ∨ c.pkey ≠ 5) ∧ me.st ∈ [1, 2, 3] ∧ (5#64).extractLsb' 48 16 = 0#16 ∧
    ((ckp 2 0 1).ck.map fun k => (k.phase, k.peers)) = some (2, [(3, 0)]) ∧ ({ ev.fab with spareSt := 1 } : Fabric).spareSt = 1 ∧ (∀ b ∈ ev.blks, ((ev.fab.map[b.core]?).getD 0) / 36 ≠ 5) ∧
    (∀ v ∈ ev.saved, v.blk.freed = true) ∧ (∃ b ∈ ev.blks, ((ev.fab.map[b.core]?).getD 0) / 36 = 0) ∧ ev.fu.errLen = 0 ∧ 0 < ({ ev.fu with errLen := 4 } : FaultUnit).errLen ∧ cellsWf ev.mem = true ∧ ev.ck = none ∧
    (ev.getBlk 0 0).any (fun b => (b.oslot 0).claimed) = false ∧ ((slotted [half 0]).unload.getBlk 0 0).any (fun b => (b.oslot 0).claimed) = true ∧ (ev.ctxs.map (·.id)).Nodup ∧ ev.rdN 0xA000 4 < 2 ^ 31 := by decide
/-- ModuleEvents: a link with its 65th replay in a millisecond; sends of a fenced module; a signal from outside to an entry in transit; a GO bit that the
host sets. -/
theorem witness_ModuleEvents_outside : 64 < (((List.replicate 65 0).filter fun x => decide (ev.wall ≤ x + 19000000)).length) ∧ (∀ l ∈ ev.fab.links, l.up = true) ∧
    ({ sig 0 (.sig 4) 7 with src := some 3 } : Send).src = some 3 ∧ (hub (sig 0 (.sig 4) 7) { me with st := 4 }).entry 5 = some { me with st := 4 } ∧ (∀ x ∈ ev.sends, x.id ≠ ev.nextId) ∧
    (ckp 1 0 1).ck.any (fun k => k.phase ≠ 2 && k.peers = [(3, 0)]) = true ∧ (∀ j < 16, ev.inReserve (.mem (ev.fu.errBase + j) 0) = false) ∧
    (let s : State := { ev with ctxs := ev.ctxs.map fun x => { x with hostPage := 0xA000 } }
     (s.getCtx 0).any (fun x => x.hostPage ≠ 0) = true ∧ s.rdN (0xA000 + 64 * 1) 4 < 2 ^ 31 ∧
       after (exec (.cxlMemHostAccess 0xA040 (some (cmdBytes 1 6 4 7))) s) (fun t => t.hostq = [⟨0, 1, 0xA040, cmdBytes 1 6 4 7⟩]) = true) := by decide
/-- R338: a link goes down with its 65th replay in a millisecond. -/
theorem test_link : after (exec (.linkFlitReplay 2) { ev with fab := { ev.fab with links := ev.fab.links.set 2 ⟨true, List.replicate 64 0⟩ } }) (fun t => t.fab.links.map (·.up) = (List.replicate 18 true).set 2 false) = true := by decide
theorem test_module : after (exec .sparePowerUp { ev with fab := { ev.fab with ready := true } }) (fun t => t.fab.spareSt = 1) = true ∧ after (exec (.powerCapSet 1499) ev) (fun t => t.fab.cap = 3000) = true ∧
    after (exec (.scrubbing (.memory 4) true) ev) (fun t => t.poison = [4]) = true ∧ after (exec (.cxlMemHostAccess 0x4000 (some [1, 2])) ev) (fun t => t.rdN 0x4000 2 = 0x201) = true := by decide

/-! ## Steps, encodings and invariants -/

/-- A chain of one word in slot 0 of the packet at 0x3000. -/
def fetched (w : Nat) : State := State.reset.withFetchWord 32 w
/-- StepRuns: a word of a barrier, whose arrival keeps its effect while the split waits for the other splits. -/
theorem witness_StepRuns_barrier : isBarrier 0x03000000#32 = true ∧ arrives 0x03000000#32 = true ∧ decodeWord 0x03000000#32 = .ok (.arrive 0) ∧ isControl 0x03000000#32 = false ∧
    after (exec (.arrive 0) (barred 1)) (fun t => t.issue.ended = some (.waiting (.arriveWait false 0 5))) = true := ⟨by decide, by decide, rfl, by decide, by decide⟩
/-- StepRuns: the one move of a placed machine is its warp's chain, a compute word and a control word; a sequencer's move; an input. -/
theorem witness_StepRuns_moves : (fetched 0x00C52468).moves = [.chain 0 0 ⟨0, 0, 0⟩ 0] ∧ ((fetched 0x00C52468).getWarp ⟨0, 0, 0⟩).isSome = true ∧
    ((seqd 1 id).unload.getBlk 0 0).isSome = true ∧ ({ State.reset with inputs := [.nop] } : State).inputs = .nop :: [] ∧ Instr.stream .nameFlush = .none := by decide
def chain1 (w : Nat) : Bool :=
  let s := at_ w
  let p := (s.warp.settle s.clock).splitAt 0
  decide (p.slot = 0) && decide (p.begun = 0) && !s.takeHeld s.warp 0 [BitVec.ofNat 32 w] && p.pendCall.isNone && (match fetchPacket s s.warp.level p.pc with | .ok pk => (pk.cause s.warp.level).isNone && pk.word 0 = BitVec.ofNat 32 w | _ => false) &&
    (decodeWord (BitVec.ofNat 32 w)).toOption.isSome && !(headerOf (BitVec.ofNat 32 w)).cb && (pfxOf (BitVec.ofNat 32 w)).isNone && !s.feBlocked s.warp 0 [BitVec.ofNat 32 w] &&
    s.chainHold s.ctx.checking s.warp 0 false [BitVec.ofNat 32 w] = .go && s.chainHold s.ctx.checking s.warp 0 true [BitVec.ofNat 32 w] = .go
theorem witness_StepRuns_chain : chain1 0x00C52468 = true ∧ isControl 0x00C52468 = false ∧ chain1 0x02C30000 = true ∧ isControl 0x02C30000 = true := by decide
theorem witness_StepRuns_matrix : (match fetchWord (seqd 1 id) .user (seqd 1 id).blk.seq.pc with | .ok w => (decodeMatrix w).toOption.isSome | _ => false) = true ∧
    (match fetchWord { seqd 1 id with mem := cellsWrite m0.mem 0x6010 (leBytes 4 0xFC000000) } .user 0x6010 with | .ok w => (decodeMatrix w).toOption.isNone | _ => false) = true := by decide
/-- The step of a placed word, its packet's fold into the signature included (R328). -/
theorem test_step_smovi : after (step (fetched 0x00C52468)) (fun t => t.warps.all fun w => w.settleAll.readU 10 = 0x2468 && (w.splitAt 0).sig = 0x00C52468 && (w.splitAt 0).slot = 1) = true := by decide
/-- The reset machine waits for the cycles to pass. -/
theorem test_step_reset : after (step State.reset) (fun t => t.clock = 1 && t.warps = []) = true := by decide

/-- EncodingsRoundTrip: an instruction of each stream, and a word that is accepted. -/
theorem witness_EncodingsRoundTrip : Instr.stream (.saddi 6 12) = .warp ∧ (Instr.saddi 6 12).wf = true ∧ encodeWord ⟨true, 3⟩ (.saddi 6 12) = 0xB083000C#32 ∧
    Instr.stream (.mset 1 3) = .matrix ∧ encodeMatrix (.mset 1 3) = 0x1C800003#32 ∧ decodeTableWord 32 0x0083000C = some (.saddi 6 12) := by decide
/-- MemoryStaysCanonical: the reset machine and a machine with memory listed. -/
theorem witness_MemoryStaysCanonical : Memory.wf State.reset = true ∧ Memory.wf (fetched 0x00C52468) = true ∧ (fetched 0x00C52468).mem ≠ [] ∧
    after (step (fetched 0x00C52468)) (fun t => Memory.wf t) = true := by decide


/-! ## Witnesses: further cases of the statements -/

/-- A block of two warps, the second of which waits nowhere, and a split that has met one mismatch. -/
def mism (l : Level) : State :=
  let s := (barred 0).setSplit { (barred 0).split with mism := true }
  { s with warp := { s.warp with level := l }, warps := [{ s.warp with key := ⟨0, 0, 1⟩ }] }
/-- ControlFlowSignature: a second mismatch at user level, in a block that stays, and in a handler. -/
theorem witness_ControlFlowSignature_second : (mism .user).active = true ∧ (mism .user).issue.sp < 4 ∧ ((mism .user).warp.splitAt (mism .user).issue.sp).mism = true ∧
    (mism .user).warp.level = .user ∧ (mism .user).ctx.halted = false ∧ ((takeTrap .signature (mism .user)).getWarp (mism .user).warp.key).any (fun w => w.exited) = true ∧
    ({ mism .handler with core := { m0.core with handling := some served } } : State).core.handling = some served ∧ (mism .handler).warp.level = .handler := by decide

/-- StoresMemory, VectorAtomics: the reserve has room, in lanes of memory and of the cellar. -/
theorem witness_StoresMemory_room : (m1 0x4000).writable ((lanesOf (m1 0x4000).E).map fun l => (l.val, .mem (0x4000 + 4 * l.val) 0)) = true ∧
    (m1 0x4000).writable [(0, .mem 0x4000 0)] = true ∧ ev.writable ((lanesOf 3).map fun l => (l.val, .mem (0x4000 + 4 * l.val) 0)) = true ∧
    (m1 0x4000).writable ((lanesOf (m1 0x4000).E).map fun l => (l.val, .cellar 0x40)) = true := by decide
/-- MemoryFaults, CellarWords: full-empty lanes whose lowest, or whose second, lies outside the window; cellar addresses outside it. -/
theorem witness_MemoryFaults_windows : (m1 0x4000).E.getLsbD 0 = true ∧ ¬(0xFFFFF00000000000 ≤ (memLane ((m1 0x4000).UD 8) 0 4 16 0 0).toNat) ∧
    (let s := m1 0xFFFFF000FFFFFFFC
     s.E.getLsbD 1 = true ∧ ¬((memLane (s.UD 8) 0 4 16 0 1).toNat < 0xFFFFF00000000000 + 2 ^ 32) ∧
       ∀ l : Fin 32, l < 1 → s.E.getLsbD l = true → 0xFFFFF00000000000 ≤ (memLane (s.UD 8) 0 4 16 0 l).toNat ∧ (memLane (s.UD 8) 0 4 16 0 l).toNat < 0xFFFFF00000000000 + 2 ^ 32) ∧
    ((m1 0x4000).UD 8).toNat < 0xFFFFE00000000000 ∧ ((m1 0x4000).UD 8).toNat % 128 = 0 ∧ 0xFFFFE00000000000 + 2 ^ 26 ≤ ((m1 0xFFFFE00004000000).UD 8).toNat := by decide
/-- R112, R119: the address fault comes before the page is looked at. -/
theorem test_window : after (exec (.vld 3 4 0 2 1 0) (m1 0x7FFF00004000)) (fun t => t.core.records.map (·.cause) = [8]) = true := by decide

/-- Branches: a target that wraps below address 0. -/
theorem witness_Branches_wrapped : (m0.issue.pkt - 12 * 1025).toNat % 12 ≠ 0 ∧ (m0.issue.pkt + 12).toNat % 12 = 0 := by decide

/-- CallsAndReturns: a `calli` of two targets, and of one that is no packet's; a full stack; a refill in flight that a return has begun. -/
def fork (k : Nat) : State := (m0.lanes 3).ramp 0 k
theorem witness_CallsAndReturns_targets : (fork 12).split.pendCall = none ∧ (fork 12).split.st = .live ∧ (0#64) ≠ 12#64 ∧
    (∀ l : Fin 32, (fork 12).split.mask.getLsbD l = true → ((fork 12).V 1)[l] ++ ((fork 12).V 0)[l] = 0#64 ∨ ((fork 12).V 1)[l] ++ ((fork 12).V 0)[l] = 12#64) ∧
    (∀ l : Fin 32, (1#32).getLsbD l = ((fork 12).split.mask.getLsbD l && decide (((fork 12).V 1)[l] ++ ((fork 12).V 0)[l] = 0#64))) ∧
    (∀ l : Fin 32, (2#32).getLsbD l = ((fork 12).split.mask.getLsbD l && decide (((fork 12).V 1)[l] ++ ((fork 12).V 0)[l] = 12#64))) ∧
    (∃ l : Fin 32, (1#32).getLsbD l = true ∧ ∀ m : Fin 32, (2#32).getLsbD m = true → l < m) ∧ (fork 12).warp.recon.length < 32 := by decide
theorem witness_CallsAndReturns_others : (∀ l : Fin 32, (fork 4).split.mask.getLsbD l = true → ((fork 4).V 1)[l] ++ ((fork 4).V 0)[l] = 0#64 ∨ ((fork 4).V 1)[l] ++ ((fork 4).V 0)[l] = 4#64) ∧
    (4#64).toNat % 12 ≠ 0 ∧ 32 ≤ deep.warp.recon.length ∧
    (let w : Warp := { m0.warp with wlimit := 4, w := 96, links := [⟨0x3000, 16, true⟩], rack := some ⟨false, 0, 16, 0, none, none⟩ }
     w.rack = some ⟨false, 0, 16, 0, none, none⟩ ∧ 48 + ((w.links.filter fun l => !l.out).map (·.k)).sum + 16 + 32 ≤ w.w) := by decide
/-- R130: the first step of a `calli` of two targets divides the split. -/
theorem test_calli_two : after (exec (.calli 0 0) (fork 12)) (fun t => t.warp.recon.map (fun e => (e.pending, e.merge)) = [(3, some (0x300C, 0))] &&
    (t.warp.splitAt 0).pendCall = some 0 && (t.warp.splitAt 1).pendCall = some 12 && (t.warp.splitAt 1).mask = 2) = true := by decide

/-- A split that a full-empty load of lane 0 holds, and one beside a split that stands at a barrier. -/
def held : State := { two 1 2 with ops := [⟨9, ⟨0, 0, 0⟩, 0, 0, .user, .none, .feload 4 true 4 [(0, 0, 0, 0)] 1, noCmd, false, false, 0, [], none, 0⟩] }
def beside (p : Split) : State := { two 1 2 with warp := (two 1 2).warp.setSplit 1 { p with mask := 2 } }
/-- RegionsAndMerges: an `exit` that nothing holds, one that a load holds, and ones beside a split at a barrier or in an `await`. -/
theorem witness_RegionsAndMerges_goes : (∀ j < 4, ((two 1 2).warp.splitAt j).st ≠ .atBarrier ∧ ((two 1 2).warp.splitAt j).atAwait = false) ∧ (two 1 2).feHeld (two 1 2).warp (two 1 2).issue.sp = false ∧
    held.feHeld held.warp held.issue.sp = true ∧ ((beside { (two 1 2).split with st := .atBarrier }).warp.splitAt 1).st = .atBarrier ∧
    ((beside { (two 1 2).split with wait := some (.barrier false 0 4) }).warp.splitAt 1).atAwait = true ∧ (two 1 2).split.atAwait = false := by decide
/-- R140: the exit beside a split that waits in an `await` traps; R247: an exit waits for the load. -/
theorem test_exit_held : after (exec .exit (beside { (two 1 2).split with wait := some (.barrier false 0 4) })) (fun t => t.core.records.map (·.cause) = [5]) = true ∧
    after (exec .exit held) (fun t => t.issue.ended = some (.waiting .retry)) = true := by decide

/-- WorkWords: a poisoned deque; items that the core has kept; a refill of no lanes' items whose card is empty. -/
theorem witness_WorkWords_ends : ({ deque 1 with blk := { (deque 1).blk with spoison := [0] } } : State).poisoned (.scratch 0 0 0) 16 = true ∧
    (let s : State := { m0 with core := { m0.core with left := [(0, [7])] } }; s.kept s.blk.core s.blk.ctx = [7]) ∧ m0.kept m0.blk.core m0.blk.ctx = [] ∧
    (let s : State := { card 0 with warp := { (card 0).warp with loopHead := 0x3000, masks := m0.warp.masks.setIfInBounds 1 allLanes }, blk := { m0.blk with card := 0x4000 } }
     s.blk.items = [] ∧ s.kept s.blk.core s.blk.ctx = [] ∧ lanesOf (s.M 1 &&& s.split.mask) ≠ [] ∧ s.split.mask &&& ~~~(s.M 1) = 0 ∧ s.warp.loopHead = s.issue.pkt ∧
       gives (place s (progAccess .user true true 0) s.blk.card 64) (.mem 0x4000 0) = true ∧ s.poisoned (.mem 0x4000 0) 64 = false ∧ s.writeBlocked 0x4000 = false ∧
       s.blk.draining = false ∧ leNat (s.readPlace (.mem (0x4000 + 44) 0) 4) = 0) := by decide

/-- CopyCommands: an address that keeps every rule of R106, though its page is absent, and one that breaks one. -/
theorem witness_CopyCommands_sound : addressOk m0 0x4000 16 = true ∧ addressOk m0 0x7FFF00004000 16 = true ∧ addressOk m0 0xFFFFF000B5000000 16 = false ∧ addressOk m0 0xFFFFF00000800000 16 = false ∧
    addressOk m0 0xFFFFE00000001000 16 = false := by decide
/-- OperandSlots: an earlier claim and an earlier fill of the slot by the warp. -/
theorem witness_OperandSlots_earlier : (let o : OSlot := { half 0 with events := [.claim 4 (some ⟨0, 0, 0⟩) 9 0] }; ∃ e ∈ o.events, e.who = some m0.warp.key) ∧
    (let s : State := { slotted [half 0] with nextId := 9, ops := [op1 (.cpyo 0x4000 0 0 0) .cp] }
     s.warp.key.core = s.blk.core ∧ s.warp.key.slot = s.blk.slot ∧ ∃ e ∈ s.ops, e.key = s.warp.key ∧ e.id < s.nextId ∧ e.done = false ∧ e.cancelled = false ∧ e.kind.fills = some 0) := by decide
/-- R159: `ohdr` waits for the warp's earlier fill. -/
theorem test_ohdr_waits : after (exec (.ohdr 8) { slotted [half 0] with nextId := 9, ops := [op1 (.cpyo 0x4000 0 0 0) .cp] }) (fun t => t.issue.ended = some (.waiting .retry)) = true := by decide

/-- The warp under a name that another module holds, its links up or down, and a core with eight sends out. -/
def away (up : Bool) : State := { named me with fab := { m0.fab with homeModule := 1, links := List.replicate 18 ⟨up, []⟩ } }
theorem witness_NameWords_away : (away true).warp.level = .user ∧ (away true).remote (away true).warp.name = true ∧ (away true).remoteRoom (away true).warp.name = true ∧
    (away false).remoteRoom (away false).warp.name = false ∧ (away true).split.wait = none ∧ (away true).remote ((cmd (away true) 5 0 0 0).UD 8) = true ∧
    ((away true).setSplit { m0.split with wait := some (.nwait 4 false) }).split.wait = some (.nwait 4 false) ∧ (m0.setSplit { m0.split with wait := some .joined }).split.wait = some .joined ∧
    (let s : State := { m0 with sends := List.replicate 8 (⟨4, some 0, some ⟨0, 0, 0⟩, 6, .wake, 5, true, 0, 0, none, none⟩ : Send) }
     8 ≤ (s.sends.filter fun x => x.core = some s.core.id && x.op.isMsg = false).length + (s.remoteWaits s.core.id).length) := by decide

/-- FirmwareWords: the record of a sequencer, and a gather on the partition of the core that `mapset` moves. -/
theorem witness_FirmwareWords_seq : ({ served with seq := true } : Served).seq = true ∧ served.key.slot < 4 ∧ ((firm 0x3004 0).getBlk served.key.core served.key.slot).isSome = true ∧
    (∃ o ∈ ({ firm 0 0 with ops := [op1 (.gather 4 9 [(0, .scratch 5 0 0)]) .gs] } : State).ops, o.onCore 5 = true) ∧ ¬(∃ o ∈ (firm 0 0).ops, o.onCore 5 = true) := by decide

/-! ## Witnesses: changed memory, engines and events -/

/-- A page of 1 GiB at the start of the address space, under the table at 0x1000. -/
theorem walk_gib {t : State} {va e : Nat} (h : va < 2 ^ 30) (k : t.tlb = []) (e4 : t.rdN 0x1000 8 = 0x2001) (e3 : t.rdN 0x2000 8 = e)
    (l : e = 0xAF ∨ e = 0xEF) : t.walk 0x1000 va = .ok va 2 e := by
  have a : va >>> 39 % 262144 = 0 := by simp [Nat.shiftRight_eq_div_pow]; omega
  have b : va >>> 30 % 512 = 0 := by simp [Nat.shiftRight_eq_div_pow]; omega
  rcases l with rfl | rfl <;> simp [State.walk, k, walkFrom, a, b, e4, e3, Nat.testBit_eq_decide_div_mod_eq, Nat.mod_eq_of_lt (show va < 1073741824 from h)]

/-- The two tables stay where memory changes elsewhere. -/
def tables (l : State) (P : List (Place × Nat)) : Bool :=
  l.tlb = [] && (List.range 8).all fun i => !l.inReserve (.mem (0x1000 + i) 0) && !l.inReserve (.mem (0x2000 + i) 0) &&
    P.all fun x => !x.1.touches x.2 (.mem (0x1000 + i) 0) && !x.1.touches x.2 (.mem (0x2000 + i) 0)
theorem tables_stay {l u : State} {P : List (Place × Nat)} (h : OnlyAt l u P) (c : tables l P = true) :
    u.tlb = [] ∧ u.rdN 0x1000 8 = l.rdN 0x1000 8 ∧ u.rdN 0x2000 8 = l.rdN 0x2000 8 := by
  simp only [tables, Bool.and_eq_true, decide_eq_true_eq, List.all_eq_true, List.mem_range, Bool.not_eq_true'] at c
  exact ⟨by rw [only_at_tlb h, c.1], only_at_rdN h _ _ (fun i hi => (c.2 i hi).1.1) fun x hx i hi => ((c.2 i hi).2 x hx).1,
    only_at_rdN h _ _ (fun i hi => (c.2 i hi).1.2) fun x hx i hi => ((c.2 i hi).2 x hx).2⟩
theorem place_gib {l u : State} {P : List (Place × Nat)} (h : OnlyAt l u P) (c : tables l P = true) (r : l.ctx.root = 0x1000) (e4 : l.rdN 0x1000 8 = 0x2001)
    (e3 : l.rdN 0x2000 8 = 0xAF) (read write : Bool) {va : Nat} (b : va < 2 ^ 30) (d : va % 16 = 0) :
    place u (progAccess .user read write 2) (BitVec.ofNat 64 va) 16 = .ok (.mem va 0) := by
  obtain ⟨k, x, y⟩ := tables_stay h c
  have n : (BitVec.ofNat 64 va).toNat = va := by simp; omega
  have w := walk_gib b k (x.trans e4) (y.trans e3) (.inl rfl)
  have f : va < 2 ^ 57 := by omega
  cases read <;> cases write <;>
    simp [place, n, need, d, show va < 144115188075855872 from f, only_at_ctx h, r, Machine.translate, w, Access.leafFault, progAccess, Nat.testBit_eq_decide_div_mod_eq, Bind.bind, Except.bind]

/-- The machine of an operation, with it and its warp loaded. -/
def opl (k : EngKind) : State := (opd (op1 k .cp)).load ⟨0, 0, 0⟩ 0 0 0
/-- What the premises on places of a put and of a copy between memories ask, whatever the units before have changed. -/
def Moves (k : EngKind) : Prop := ∀ u, OnlyAt (opl k) u [(.mem 0x4000 0, 16)] →
  place u (progAccess .user false true 2) (BitVec.ofNat 64 0x4000) 16 = .ok (.mem 0x4000 0) ∧ place u (progAccess .user true false 2) (BitVec.ofNat 64 0x8000) 16 = .ok (.mem 0x8000 0)
theorem moves_of (k : EngKind) (c : (tables (opl k) [(.mem 0x4000 0, 16)] && (opl k).ctx.root = 0x1000 && (opl k).rdN 0x1000 8 = 0x2001 && (opl k).rdN 0x2000 8 = 0xAF) = true) : Moves k := by
  simp only [Bool.and_eq_true, decide_eq_true_eq] at c
  exact fun _ h => ⟨place_gib h c.1.1.1 c.1.1.2 c.1.2 c.2 _ _ (by decide) (by decide), place_gib h c.1.1.1 c.1.1.2 c.1.2 c.2 _ _ (by decide) (by decide)⟩
/-- EngineEvents: a put, and copies between memories on this module and to another one. -/
theorem witness_EngineEvents_moved : Moves (.cpy true 0x4000 32 false 1 16 0) ∧ Moves (.cpyr 0x4000 0x8000 0 false (16 * 1)) ∧ Moves (.cpyr 0x8000 0x4000 0 true (16 * 1)) ∧ Moves (.cpyr 0x4000 0x8000 1 false (16 * 1)) :=
  ⟨moves_of _ (by decide), moves_of _ (by decide), moves_of _ (by decide), moves_of _ (by decide)⟩

/-- EngineEvents: the places of a copy of two rows with a stride, links that are up, and a fill of an operand slot. -/
theorem witness_EngineEvents_rows : (let l := (opd (op1 (.cpy false 0x4000 32 false 2 16 48) .cp)).load ⟨0, 0, 0⟩ 0 0 0
      ∀ j < 2, gives (place l (progAccess .user true false 2) (BitVec.ofNat 64 (0x4000 + 16 * j / 16 * 48 + 16 * j % 16)) 16) (.mem (0x4000 + 48 * j) 0) = true) ∧
    Memory.wf (opd (op1 (.cpyr 0x4000 0x8000 1 false 0) .cp)) = true ∧ ev.ck = none ∧ ev.poison = [] ∧ 1 ≠ ev.fab.homeModule ∧ 1 ∉ ev.fab.revoked ∧ ev.fab.homeModule ∉ ev.fab.revoked ∧
    (∃ x ∈ ev.fab.links, x.up = true) ∧ (∀ j < 0, Config.remoteFault 0 (16 * j) ∉ [1, 2]) := by
  refine ⟨by decide, by decide, by decide, by decide, by decide, by decide, by decide, by decide, fun j h => absurd h (Nat.not_lt_zero j)⟩
/-- A slot of FP4, whose image has 1024 bytes, and the machine that fills it. -/
def nib : OSlot := ⟨0, true, 8, 0, false, false, none, [], [], 0, 0, []⟩
def fill : State := onB (fun b => { b with slots := 2, oslots := [nib] }) (opd (op1 (.cpyo 0x4000 0 0 0) .cp))
theorem witness_EngineEvents_cpyo : nib.readers = 0 ∧ cellsWf nib.img = true ∧ cellsWf nib.scl = true ∧ fill.poison = [] ∧
    (fill.getBlk 0 0).any (fun b => (b.oslot 0) = nib && (b.oslot 1).readers = 0 && cellsWf (b.oslot 1).img) = true ∧
    ([0, 1, imageBytes nib.hdr / 16 - 1].all fun j => gives (place (fill.load ⟨0, 0, 0⟩ 0 0 0) (progAccess .user true false 2)
      (BitVec.ofNat 64 (0x4000 + 16 * j / (imageBytes nib.hdr / 32) * (imageBytes nib.hdr / 32) + 16 * j % (imageBytes nib.hdr / 32))) 16) (.mem (0x4000 + 16 * j) 0)) = true ∧
    gives (place (fill.load ⟨0, 0, 0⟩ 0 0 0) (progAccess .user true false 2) (BitVec.ofNat 64 0x4000 + nib.soff.signExtend 64 + BitVec.ofNat 64 511) 1) (.mem 0x41FF 0) = true := by decide
/-- EngineEvents: a second contribution with a key that waits in the cell's queue already, and one with a new key. -/
theorem witness_EngineEvents_queue : (let l : CLine := { (cell 1 500 0).cline 2 with queue := [(97, some 0)] }; l.st = 1 ∧ 97 < l.count ∧ l.next + 64 ≤ 97 ∧ (∃ q ∈ l.queue, q.1 = 97) ∧ ∀ q ∈ l.queue, q.1 ≠ 98) := by decide

/-- A warp whose one frame of 8 registers is being spilled to a cask page at 0x10000. -/
def spills : State := { onW (fun w => { w with w := 64, links := [⟨0x300C, 8, false⟩], cask := 0x10000, rack := some ⟨true, 1, 8, 0, none, none⟩ }) with mem := cellsWrite ev.mem 0x2000 [0xEF] }
theorem witness_EngineEvents_spill : (spills.getWarp ⟨0, 0, 0⟩).any (fun w => w.links = [⟨0x300C, 8, false⟩] && decide (0 < w.w ∧ w.w ≤ 176 ∧ 8 ≤ w.w ∧ w.wbase < w.w) && w.pend = [] && w.rack = some ⟨true, 1, 8, 0, none, none⟩) = true ∧
    cellsWf spills.mem = true ∧ spills.ck = none ∧ (spills.getBlk 0 0).any (fun b => b.ctx = 0) = true ∧ (spills.getCtx 0).any (fun c => c.root = 0x1000 && c.id = 0) = true ∧
    ∀ u, OnlyAt (spills.load ⟨0, 0, 0⟩ 0 0 0) u [(.mem 0x10000 0, 16 + 128 * 8)] → ∀ i ≤ 8 * 8, translate u 0x1000 ⟨false, true, false, false, true, 3⟩ (0x10000 + 16 * i) = .ok (0x10000 + 16 * i, 0) := by
  refine ⟨by decide, by decide, by decide, by decide, by decide, fun u h i hi => ?_⟩
  obtain ⟨k, x, y⟩ := tables_stay h (by decide)
  have w := walk_gib (va := 0x10000 + 16 * i) (by omega) k (x.trans (by decide)) (y.trans (by decide)) (.inr rfl)
  simp [Machine.translate, w, Access.leafFault, Nat.testBit_eq_decide_div_mod_eq]

/-- A slot of MXFP8 with the scale FF in its first row, and a log with room for all events of an `mmac`. -/
def badMx : OSlot := { half 0 with hdr := 0x200004, scl := [(0, 0xFF)] }
/-- ResultEvents: a bad scale, whatever the shadow columns say; products that are numbers, an infinity and a NaN; formats with and without a scale. -/
theorem witness_ResultEvents_errors : badMx.badScaleRow 0 = true ∧ 0 < 128 ∧ (∀ (p q : Nat → Bool) (r : Bool → Bool),
      (((List.range 32).filter p).map (fun i => (4, i)) ++ ((List.range 32).filter q).map (fun i => (4, i)) ++ ([false, true].filter r).map fun (h : Bool) => (3, if h then 1 else 0)).length ≤ 128) ∧
    ev.ck = none ∧ cellsWf ev.mem = true := by
  refine ⟨by decide, by decide, fun p q r => ?_, by decide, by decide⟩
  have a := List.length_filter_le p (List.range 32)
  have b := List.length_filter_le q (List.range 32)
  have c := List.length_filter_le r [false, true]
  simp only [List.length_append, List.length_map, List.length_range, List.length_cons, List.length_nil] at *
  omega
theorem witness_ResultEvents_formats : (slotFmt (hdrFmt 0)).isSome = true ∧ (slotFmt (hdrFmt 0x200004)).isSome = true ∧ ¬(4 ≤ hdrFmt 0 ∧ hdrFmt 0 ≤ 8) ∧ (4 ≤ hdrFmt badMx.hdr ∧ hdrFmt badMx.hdr ≤ 8) ∧
    badMx.scaleOf 0 (0 / 32) % 256 = 255 ∧ ({ badMx with scl := [(0, 0x7F)] } : OSlot).scaleOf 0 0 % 256 = 127 ∧ hdrFmt (0 : Word) < 9 ∧
    FVal.nan ∈ [fp32.decode 0x7FC00000, .inf true] ∧ FVal.inf false ∈ [fp32.decode 0x7F800000] ∧ FVal.nan ∉ [fp32.decode 0x7F800000] ∧ FVal.inf true ∉ [fp32.decode 0x7F800000] ∧
    matrixSum 0x7F800000 [.inf true] = 0x7FC00000#32 ∧ matrixSum 0 [.num ⟨false, 0, 0⟩] = 0 := by decide

/-- HubEvents: a send whose name has no entry; a deposit at the limit of the count; writes that wait for the reserve. -/
theorem witness_HubEvents_waits : (let s : State := { hub (sig 0 (.sig 4) 7) me with names := [] }
      s.sends.find? (fun y => y.id = 4) = some (sig 0 (.sig 4) 7) ∧ s.remote 5 = false ∧ s.entry 5 = none) ∧
    (sig 0 (.dep 0 9 true) 7).op = .dep 0 9 true ∧ ({ me with count := 2 ^ 32 - 1 } : NameEntry).count = 2 ^ 32 - 1 ∧
    (match storeBytes (ckp 2 0 0) 0x1000 4 0x4000 [1] with | .error (.wait .retry) => true | _ => false) = true := by decide
theorem witness_HubEvents_told : (let s := hub (sig 0 (.sig 4) 7) me
      (sig 0 (.sig 4) 7).key = some ⟨0, 0, 0⟩ ∧ (s.getWarp ⟨0, 0, 0⟩).any (fun w => w.pend.filter (fun p => p.id = 4) = [⟨4, none, false, true, .u 6, allLanes, splat 9⟩]) = true) ∧
    after (exec (.sendResolve 4) { hub (sig 0 (.sig 4) 7) me with names := [] }) (fun t => (t.getWarp ⟨0, 0, 0⟩).any fun w => w.readU 6 = 15) = true := by decide

/-- HostCommands: a place of the host under way; a full wait table; addresses that are refused; a waiter; a slot, one that an `mmac` reads, and a saved block. -/
theorem witness_HostCommands_further : (∃ y ∈ ({ plc with sends := [⟨4, none, none, 0, .place 64 [] [], 6, true, 0, 0, none, some 0xA040⟩] } : State).sends, y.op.isPlace = true ∧ y.host = some 0xA040) ∧
    (∀ y ∈ plc.sends, ¬(y.op.isPlace = true ∧ y.host = some 0xA040)) ∧ (0x4001#64).toNat % 4 ≠ 0 ∧ 2 ^ 57 ≤ (0x200000000000000#64).toNat ∧ (9#64).toNat % 8 ≠ 0 ∧
    (let e : WEntry := ⟨4, 0, 0x4000, none, 0xB000, 2⟩
     ([e].filter fun y => y.ctx = 0 && y.va = 0x4000) = [e] ∧ e.warp = none ∧ ∀ i < 8, ev.inReserve (.mem (e.wakeAddr.toNat + i) 0) = false) ∧
    (let s : State := { ev with warps := ev.warps.map fun w => w.setSplit 0 { w.splitAt 0 with wait := some (.wwait false) } }
     (s.getWarp ⟨0, 0, 0⟩).any (fun w => (w.splitAt 0).wait = some (.wwait false)) = true) ∧
    (let b : Block := { (m0.unload.blks.headD Block.none) with slots := 2, oslots := [half 0] }
     0 < b.slots ∧ b.partner 0 = false ∧ (b.oslot 0).valid = true ∧ 16 * 1 ≤ imageBytes (b.oslot 0).hdr ∧ (b.oslot 0).readers = 0 ∧ cellsWf (b.oslot 0).img = true ∧ cellsWf (b.oslot 1).img = true ∧
       0 < ({ half 0 with readers := 1 } : OSlot).readers ∧ b.slots ≤ 2 ∧ b.part < 4096 + 16 * 1 ∧ (65 : Nat) % 16 ≠ 0) ∧ 8192 ≤ (List.replicate 8192 (⟨4, 0, 0x4000, none, 0xB000, 2⟩ : WEntry)).length := by
  refine ⟨by decide, by decide, by decide, by decide, by decide, by decide, by decide, by decide, Nat.le_of_eq List.length_replicate.symm⟩
/-- The warp of `plc` in a saved block. -/
def plcSaved : State :=
  { plc with warps := [], blks := [], saved := [⟨{ (plc.blks.headD Block.none) with life := .saved }, plc.warps, [], false, 0, false, none⟩] }
theorem witness_HostCommands_saved : plcSaved.warps.find? (fun w => w.name = 6 && w.level = .user && !w.exited) = none ∧ (plcSaved.saved.find? fun v => v.warps.any fun w => w.name = 6).any (fun v =>
      let b := v.blk.readBack (plcSaved.fields v.blk.ctx v.blk.area)
      plcSaved.reserveRoom (plcSaved.poolPages b.ctx b.area (b.areaSize b.freed)) && (plcSaved.placeFault b 64 16).isNone && decide (64 + 16 * 1 ≤ b.part) && cellsWf b.scratch) = true := by decide
/-- R281: a host's wake ends the wait of a warp. -/
theorem test_host_wake : after (exec (.hostWwake 0 1) { hst 7 0x4000 1 1 [host5] with wtab := [⟨4, 0, 0x4000, some ⟨0, 0, 0⟩, 0, 0⟩], warps := ev.warps.map fun w => w.setSplit 0 { w.splitAt 0 with wait := some (.wwait false) } })
    (fun t => t.rdN 0xA060 8 = 1 && t.wtab = [] && t.warps.all fun w => (w.splitAt 0).wait = some (.wwait true)) = true := by decide

/-- Arbitration: a winner that has written `sig`. -/
theorem witness_Arbitration_late : (let s : State := { frees with warps := frees.warps.map fun (w : Warp) => w.setSplit 0 { w.splitAt 0 with late := [(0x09, 7)] } }
      (s.candidates 0 0).length = 1 ∧ ((s.candidates 0 0).all fun a => (a.1.splitAt a.2).late = [(0x09, 7)]) = true ∧ (s.warps.map (·.key)).Nodup ∧
        after (exec (.runArbitration 0 0) s) (fun t => (t.getWarp ⟨0, 0, 0⟩).any fun w => (w.splitAt 0).sig = 7) = true) := by decide

/-- ContextsAndLaunches: a standing record with its stream free, in another context or bound; a dependence on another module's name, with links
up, links down, and cut off. -/
def standing (st : Machine.Stream) : State :=
  { record 1 1 0 with mem := cellsWrite (cellsWrite (record 1 1 0).mem (0xD000 + 41) (leBytes 2 0x0202)) (0xD000 + 43) (leBytes 1 0), streams := [st] }
theorem witness_ContextsAndLaunches_standing : (standing { strm with launch := none }).rdN (0xD000 + 41) 1 < 8 ∧ ((standing { strm with launch := none }).rdN (0xD000 + 41) 1).testBit 1 = true ∧
    (standing { strm with launch := none }).rdN (0xD000 + 24) 4 = 1 ∧ (standing { strm with launch := none }).rdN (0xD000 + 42) 1 = 2 ∧
    (standing { strm with launch := none }).stream 2 = some { strm with launch := none } ∧ ({ strm with launch := none, ctx := 1 } : Machine.Stream).ctx ≠ 0 ∧ strm.launch ≠ none ∧ strm.ctx = 0 ∧
    after (exec (.launchRecordTake 0) (standing { strm with launch := none })) (fun t => t.launches.map (·.standing) = [true] && (t.stream 2).any fun y => y.launch.isSome) = true := by decide
def afar (up : Bool) (cut : List Nat) : State :=
  { headed { lnch 1 1 with depObj := 5 } with fab := { ev.fab with homeModule := 1, links := List.replicate 18 ⟨up, []⟩, revoked := cut } }
theorem witness_ContextsAndLaunches_remote : (afar true []).remote 5 = true ∧ (afar true []).nameHome 5 = 0 ∧ 0 ∉ (afar true []).fab.revoked ∧ 1 ∉ (afar true []).fab.revoked ∧
    (∃ y ∈ (afar true []).fab.links, y.up = true) ∧ (∀ y ∈ (afar false []).fab.links, y.up = false) ∧ 0 ∈ (afar true [0]).fab.revoked ∧
    (match translate (headed { lnch 3 1 with depObj := 0x7FFF00000000 }) 0x1000 ⟨true, false, false, true, false, 2⟩ 0x7FFF00000000 with | .error _ => true | _ => false) = true := by decide

/-- BlockStarts: the turn of a launch; a standing one; a saved block that was freed and goes to another core; one that migrates. -/
def freed : State :=
  { ready3 [] with
    warps := [], blks := [{ ((ready3 []).blks.headD Block.none) with core := 0, ctx := 0 }]
    saved := [⟨{ ((ready3 []).blks.headD Block.none) with core := 0, launch := 9, life := .saved, freed := true, ctx := 1, slot := 3 }, [], [], true, 2, false, none⟩]
    ctxs := ev.ctxs ++ [{ ev.ctx with id := 1, live := true }] }
theorem witness_BlockStarts_freed : (freed.saved.all fun v => v.transit && v.dest = 2 && v.blk.freed && freed.admits 2 v.blk && freed.restorable v 2 && freed.freezing v.blk.ctx == false) = true ∧
    (freed.getBlk 2 (freed.freeSlot 2)).isNone = true ∧ freed.sends = [] ∧ (freed.getCtx 1).any (·.live) = true ∧
    after (exec (.blockRestore 9 0 2) freed) (fun t => t.saved = [] && t.blks.any fun b => b.core = 2 && b.launch = 9 && b.life = .resident && b.slot = 0) = true := by decide
theorem witness_BlockStarts_standing : (let s := ready3 [{ lnch 0 1 with standing := true }]
      s.firstCore { lnch 0 1 with standing := true } = some 1 ∧ (s.launch 0).any (fun l => s.mayAdmit l 1) = true ∧
        after (exec (.blockAdmit 0 1) s) (fun t => (t.getBlk 1 0).any (fun b => b.life = .resident && b.act.isNone) && t.launches.map (·.offered) = [1]) = true) := by decide

/-- Preemption: a forced save of a split that goes back to its region entry; pools whose pages wait for a checkpoint's reserve. -/
def forcedSave : State :=
  let s := idle .forced true
  { s with warps := s.warps.map fun (w : Warp) => w.setSplit 0 { w.splitAt 0 with wait := none, region := 0x3000, pc := 0x300C, saved := 5 } }
theorem witness_Preemption_forced : ((forcedSave.getCtx 0).any fun c => c.pre = .forced) = true ∧ (forcedSave.getBlk 0 0).any (fun b => b.draining && b.migrate.isNone && forcedSave.saveReady b true &&
      (((forcedSave.getCtx 0).any fun c => (allocAreas c c.areas (((forcedSave.warpsOf b).filter fun w => !w.exited).map Warp.areaSize ++ [b.areaSize c.preFree])).any fun a => forcedSave.poolRoom 0 a))) = true ∧
    (forcedSave.warps.all fun w => (w.splitAt 0).goesBack) = true ∧ (∀ w ∈ forcedSave.warps, (∀ e ∈ w.recon, e.deferred = []) ∧ ∀ q ∈ w.dqWait.toList, q = []) ∧ forcedSave.ops = [] := by decide
theorem witness_Preemption_reserve : (let s : State := { idle .draining true with ck := some ⟨0xC000, 0x40000, 2, [⟨0, [16], 0, none, 3⟩], [(3, 0)], [], 0, 0, 0, 0, 0, [0], []⟩ }
      s.poolRoom 0 [(0x10000, 4096)] = false) ∧ (idle .draining true).poolRoom 0 [(0x10000, 4096)] = true := by decide
/-- Preemption: the migration of a saved block that keeps its core. -/
def parked : State := { asleep false with ctxs := ev.ctxs.map fun x => { x with pool := 0x10000, poolSize := 0x20000 } }
theorem witness_Preemption_migration : (parked.getBlk 0 0).isNone = true ∧ (parked.saved.find? fun v => v.blk.core = 0 && v.blk.slot = 0 && !v.blk.freed).any (fun v =>
      ((parked.getCtx v.blk.ctx).any fun c => (allocArea c c.areas (v.blk.areaSize true)).any fun a => parked.poolRoom v.blk.ctx [(a, v.blk.areaSize true), (parked.tileArea v.blk.ctx v.blk.core, 4096 * v.blk.acc)])) = true ∧
    ((parked.getCtx 0).any fun c => (allocArea { c with poolSize := 0 } c.areas 64).isNone) = true ∧ (asleep true).saved.all (fun v => v.blk.freed) = true := by decide

/-- StreamEvents: a configuration that writes at once; an unbind of a stream whose block runs an activation, and of one whose block is idle. -/
theorem witness_StreamEvents_bound : ev.ck = none ∧ ((strDesc 10 5).configured ((strDesc 10 5).readStream 2 0xC000)).isSome = true ∧
    (let s : State := onB (fun b => { b with act := some ⟨2, false, 3, 0, 0, []⟩ }) stands; ∃ b ∈ s.blks, b.launch = 0 ∧ b.act ≠ none) ∧ (∀ b ∈ stands.blks, b.launch = 0 → b.act = none) := by decide

/-- Checkpoints: a granule that two frozen granules share a page with and a reserve with room for both; peers that are reached and not. -/
theorem witness_Checkpoints_shared : (let k : Checkpoint := ⟨0xC000, 0x40000, 2, [⟨0, [4], 0, none, 3⟩, ⟨1, [4, 5], 0, none, 3⟩], [(3, 0)], [], 2, 0, 0, 0, 0, [0], []⟩
      (k.grans.filter fun x => x.st = 0 && x.pages.contains 4).length = 2 ∧ k.used.length + 2 ≤ k.reserve ∧ (∀ q ∈ [4, 5], q < k.base / 4096 ∨ k.base / 4096 + 16 * k.reserve ≤ q)) ∧
    (ckp 2 0 1).reaches 3 = true ∧ ({ ckp 2 0 1 with fab := { ev.fab with links := List.replicate 18 ⟨false, []⟩ } } : State).reaches 3 = false := by decide

/-- A module of 32 cores on every die, die 0 of which has failed, and nothing on it. -/
def dies : Fabric := { ev.fab with ready := true, harvest := List.replicate 21 mask4, spare := 20, spareSt := 1, map := [1, 2, 37] }
/-- ModuleEvents: the spare's clusters for a die of the same shape; a module that is cut off; peers that are left; a reserve that is exhausted. -/
theorem witness_ModuleEvents_spare : (∀ k < 9, ((dies.spareClusters 0)[k]?).getD 0 < 9 ∧ (dies.enabled 0 k).length ≤ (dies.enabled 20 (((dies.spareClusters 0)[k]?).getD 0)).length) ∧
    ((List.range dies.map.length).filter fun c => decide (((dies.map[c]?).getD 0) / 36 = 0)).length ≤ ((List.range 9).map fun k => (dies.enabled 0 k).length).sum ∧
    after (exec (.rehome 0) { ev with fab := dies, blks := [] }) (fun t => t.fab.map.map (· / 36) = [20, 20, 1]) = true := by decide
theorem witness_ModuleEvents_cut : ev.fab.homeModule ∈ ({ ev.fab with revoked := [ev.fab.homeModule] } : Fabric).revoked ∧ (([(3, 0), (4, 0)] : List (Nat × DWord)).map (·.1)).filter (fun p => p != 3) ≠ [] ∧
    (ckp 2 0 0).reserveRoom (pagesOf 0x4000 8) = false ∧ (ckp 2 0 1).reserveRoom (pagesOf 0x4000 8) = true ∧ ([1] : List Byte) ≠ [] := by decide

/-- StepRuns: nothing else holds the placed chain; a word of firmware memory. -/
theorem witness_StepRuns_held : (at_ 0x00C52468).stallHeld (at_ 0x00C52468).warp [0x00C52468] = false ∧ (0x3000#64).toNat < 2 ^ 57 ∧
    gives (fetchWord (State.reset.withFetchWord 32 0x0E400000) .firmware 0x3000) 0x0E400000#32 = true := by decide
end Sys2Proof.Tests
end

section
/-!
Compute words: how the moulds of lane-wise words follow from `vec1`, `vec2` and `vecAcc`, and the fields of a V3 word.
-/
namespace Sys2Proof.Machine
open BitVec (extractLsb'_append_eq_of_le extractLsb'_append_eq_right)

/-! ## The moulds of lane-wise words -/

/-- A word whose meaning is to complete with the writes `l` in flight gives them. -/
theorem Puts.gives {i : Instr} {s s' t : State} {lat : Option Nat} {l : List Write} (p : Puts s' t lat l) (h : exec i s = Machine.done t) :
    Gives i s s' lat l := by
  unfold Gives
  rw [h]
  exact p.done

theorem vec1_of_exec {lat : Nat} {i : BitVec 6 → BitVec 6 → Instr} {f : RMode → Word → Word}
    (h : ∀ d a s, exec (i d a) s = done (vec1 (some lat) (f s.mode) d a s)) : Vec1 lat i f :=
  fun d a s => (vec1_puts _ _ d a s).gives (h d a s)

theorem vec2_of_exec {lat : Nat} {i : BitVec 6 → BitVec 6 → BitVec 6 → Instr} {f : RMode → Word → Word → Word}
    (h : ∀ d a b s, exec (i d a b) s = done (vec2 (some lat) (f s.mode) d a b s)) : Vec2 lat i f :=
  fun d a b s => (vec2_puts _ _ d a b s).gives (h d a b s)

theorem vecAcc_of_exec {lat : Nat} {i : BitVec 6 → BitVec 6 → BitVec 6 → Instr} {f : RMode → Word → Word → Word → Word}
    (h : ∀ d a b s, exec (i d a b) s = done (vecAcc (some lat) (f s.mode) d a b s)) : VecAcc lat i f :=
  fun d a b s => (vecAcc_puts _ _ d a b s).gives (h d a b s)

/-- A mould holds of every operation that is the same lane by lane. -/
theorem Vec1.congr {lat : Nat} {i : BitVec 6 → BitVec 6 → Instr} {f g : RMode → Word → Word} (h : Vec1 lat i f)
    (e : ∀ m x, f m x = g m x) : Vec1 lat i g := by
  rwa [show g = f from funext fun m => funext fun x => (e m x).symm]

theorem Vec2.congr {lat : Nat} {i : BitVec 6 → BitVec 6 → BitVec 6 → Instr} {f g : RMode → Word → Word → Word} (h : Vec2 lat i f)
    (e : ∀ m x y, f m x y = g m x y) : Vec2 lat i g := by
  rwa [show g = f from funext fun m => funext fun x => funext fun y => (e m x y).symm]

theorem VecAcc.congr {lat : Nat} {i : BitVec 6 → BitVec 6 → BitVec 6 → Instr} {f g : RMode → Word → Word → Word → Word}
    (h : VecAcc lat i f) (e : ∀ m x y c, f m x y c = g m x y c) : VecAcc lat i g := by
  rwa [show g = f from funext fun m => funext fun x => funext fun y => funext fun c => (e m x y c).symm]

theorem vsrc3_vW (s : State) (a b : BitVec 6) (n : Nat) (v : VReg) : (s.vsrc3 a b).2.2.2.vW n v = s.vW n v := by
  rw [vsrc3_frame]
  rfl

/-! ## The fields of a vector word (R43, R50) -/

/-- The upper half of a vector word: the header, the major and `vd`. -/
def vecHead (h : Header) (maj d : BitVec 6) : BitVec 16 := BitVec.ofBool h.cb ++ h.stall ++ maj ++ d

theorem vecHead_major (h : Header) (maj d : BitVec 6) : (vecHead h maj d).extractLsb' 6 6 = maj := by
  rw [vecHead, extractLsb'_append_eq_of_le (by decide)]
  exact extractLsb'_append_eq_right

theorem vecHead_vd (h : Header) (maj d : BitVec 6) : (vecHead h maj d).extractLsb' 0 6 = d := extractLsb'_append_eq_right

/-- A word of the V3 format as `DecodesV3` writes it. -/
def wordV3 (h : Header) (maj d a b : BitVec 6) (fn : BitVec 4) : Word := vecHead h maj d ++ a ++ b ++ fn

theorem wordV3_fields (h : Header) (maj d a b : BitVec 6) (fn : BitVec 4) :
    fld (wordV3 h maj d a b fn) 22 6 = maj ∧ fld (wordV3 h maj d a b fn) 16 6 = d ∧ fld (wordV3 h maj d a b fn) 10 6 = a ∧
      fld (wordV3 h maj d a b fn) 4 6 = b ∧ fld (wordV3 h maj d a b fn) 0 4 = fn := by
  unfold fld wordV3
  refine ⟨?_, ?_, ?_, ?_, extractLsb'_append_eq_right⟩
  · rw [extractLsb'_append_eq_of_le (by decide), extractLsb'_append_eq_of_le (by decide), extractLsb'_append_eq_of_le (by decide)]
    exact vecHead_major h maj d
  · rw [extractLsb'_append_eq_of_le (by decide), extractLsb'_append_eq_of_le (by decide), extractLsb'_append_eq_of_le (by decide)]
    exact vecHead_vd h maj d
  · rw [extractLsb'_append_eq_of_le (by decide), extractLsb'_append_eq_of_le (by decide)]
    exact extractLsb'_append_eq_right
  · rw [extractLsb'_append_eq_of_le (by decide)]
    exact extractLsb'_append_eq_right

/-- A field of the minor code. -/
theorem fld_of_minor {w : Word} {fn : BitVec 4} (h : fld w 0 4 = fn) {lo n : Nat} (g : lo + n ≤ 4) : fld w lo n = fn.extractLsb' lo n := by
  subst h
  apply BitVec.eq_of_getLsbD_eq
  intro j hj
  simp only [fld, BitVec.getLsbD_extractLsb', hj, show lo + j < 4 by omega, decide_true, Bool.true_and, Nat.zero_add]

theorem decodeWord_ok {w : Word} {i : Instr} (h : decodeFull w = .ok i) : decodeWord w = .ok i := by
  rw [decodeWord, h]

theorem decodeWord_error {w : Word} {e : Nat × Option Instr} (h : decodeFull w = .error e) : ∃ c, decodeWord w = .error c := by
  rw [decodeWord, h]
  exact ⟨_, rfl⟩

theorem decodesV3_of_major {maj : BitVec 6} {fn : BitVec 4} {i : BitVec 6 → BitVec 6 → BitVec 6 → Instr} {f : Word → Decoded}
    (major : ∀ {w}, fld w 22 6 = maj → decodeFull w = f w)
    (minor : ∀ w, fld w 0 4 = fn → f w = .ok (i (fld w 16 6) (fld w 10 6) (fld w 4 6))) : DecodesV3 maj fn i := by
  intro h d a b
  obtain ⟨hm, hd, ha, hb, hf⟩ := wordV3_fields h maj d a b fn
  have k := minor _ hf
  rw [hd, ha, hb] at k
  exact decodeWord_ok ((major hm).trans k)

theorem decodeFull_11 {w : Word} (h : fld w 22 6 = 0x11) : decodeFull w = decodeMajor11 w := by rw [decodeFull, majorOf, h]; rfl
theorem decodeFull_12 {w : Word} (h : fld w 22 6 = 0x12) : decodeFull w = decodeMajor12 w := by rw [decodeFull, majorOf, h]; rfl
theorem decodeFull_13 {w : Word} (h : fld w 22 6 = 0x13) : decodeFull w = decodeMajor13 w := by rw [decodeFull, majorOf, h]; rfl
theorem decodeFull_14 {w : Word} (h : fld w 22 6 = 0x14) : decodeFull w = decodeMajor14 w := by rw [decodeFull, majorOf, h]; rfl
theorem decodeFull_15 {w : Word} (h : fld w 22 6 = 0x15) : decodeFull w = decodeMajor15 w := by rw [decodeFull, majorOf, h]; rfl
theorem decodeFull_19 {w : Word} (h : fld w 22 6 = 0x19) : decodeFull w = decodeMajor19 w := by rw [decodeFull, majorOf, h]; rfl

end Sys2Proof.Machine
end

section
/-!
Vector integer arithmetic (R81, R82): what the operations of major 0x10 compute in a lane, and the words of majors 0x11 and 0x12.
-/
namespace Sys2Proof.Machine
open BitVec (extractLsb'_append_eq_of_le extractLsb'_append_eq_right)

/-! ## Lane operations -/

/-- The upper half of a 64-bit product. -/
theorem high_of_ofInt (p : Int) : ((BitVec.ofInt 64 p) >>> 32).setWidth 32 = BitVec.ofInt 32 (p / 2 ^ 32) := by
  apply BitVec.eq_of_toNat_eq
  rw [BitVec.toNat_setWidth, BitVec.toNat_ushiftRight, BitVec.toNat_ofInt, BitVec.toNat_ofInt, Nat.shiftRight_eq_div_pow]
  omega

theorem mulhS_eq (a b : Word) : mulhS a b = ((a.signExtend 64 * b.signExtend 64) >>> 32).setWidth 32 := by
  have ext (x : Word) : x.signExtend 64 = BitVec.ofInt 64 x.toInt := by
    rw [← BitVec.toInt_signExtend_of_le (w := 32) (v := 64) (by decide), BitVec.ofInt_toInt]
  rw [ext, ext, ← BitVec.ofInt_mul, high_of_ofInt, mulhS]

theorem mulhU_eq (a b : Word) : mulhU a b = ((a.setWidth 64 * b.setWidth 64) >>> 32).setWidth 32 := by
  have ext (x : Word) : x.setWidth 64 = BitVec.ofInt 64 x.toNat := by rw [BitVec.ofInt_natCast, BitVec.ofNat_toNat]
  rw [ext, ext, ← BitVec.ofInt_mul, high_of_ofInt, mulhU, ← BitVec.ofInt_natCast, Nat.shiftRight_eq_div_pow]
  rfl

/-- The distance of two signed values, at any width. -/
theorem ofNat_natAbs_sub {n : Nat} (x y : BitVec n) :
    BitVec.ofNat n (x.toInt - y.toInt).natAbs = if x.toInt ≤ y.toInt then y - x else x - y := by
  have dist (u v : BitVec n) : BitVec.ofInt n (u.toInt - v.toInt) = u - v := by
    rw [BitVec.sub_eq_add_neg, Int.sub_eq_add_neg, BitVec.ofInt_add, BitVec.ofInt_neg, BitVec.ofInt_toInt, BitVec.ofInt_toInt]
  rw [← BitVec.ofInt_natCast]
  split
  next h => rw [← dist, show ((x.toInt - y.toInt).natAbs : Int) = y.toInt - x.toInt by omega]
  next h => rw [← dist, show ((x.toInt - y.toInt).natAbs : Int) = x.toInt - y.toInt by omega]

/-- A count of 32 or more shifts everything out. -/
theorem shl_eq {n : Nat} (a : BitVec n) (c : Nat) : shl a c = a <<< c := by
  unfold shl
  split
  next h => exact (BitVec.shiftLeft_eq_zero h).symm
  next => rfl

theorem shr_eq {n : Nat} (a : BitVec n) (c : Nat) : shr a c = a >>> c := by
  unfold shr
  split
  next h => exact (BitVec.ushiftRight_eq_zero h).symm
  next => rfl

theorem sar_eq {n : Nat} (a : BitVec n) (c : Nat) : sar a c = a.sshiftRight c := by
  unfold sar
  by_cases h : c ≤ n - 1
  · rw [Nat.min_eq_left h]
  · apply BitVec.eq_of_getLsbD_eq
    intro j hj
    rw [BitVec.getLsbD_sshiftRight, BitVec.getLsbD_sshiftRight, Nat.min_eq_right (by omega)]
    by_cases k : j = 0
    · subst k
      simp [show ¬ n ≤ 0 by omega, show ¬ c < n by omega, show n - 1 < n by omega, BitVec.msb_eq_getLsbD_last]
    · simp [show ¬ n - 1 + j < n by omega, show ¬ c + j < n by omega]

/-- Population count as the number of positions that hold a one. -/
theorem popc_eq (x n : Nat) : popc x n = ((List.range n).filter fun k => x.testBit k).length := by
  induction n with
  | zero => rfl
  | succ n ih =>
    have bit : (x >>> n) % 2 = if x.testBit n then 1 else 0 := by
      have := Nat.toNat_testBit x n
      rw [Nat.shiftRight_eq_div_pow, ← this]
      cases x.testBit n <;> rfl
    rw [popc, ih, bit, List.range_succ, List.filter_append, List.length_append, Nat.add_comm]
    cases h : x.testBit n <;> simp [h]

/-- The number of zeros above the highest one of a word. -/
def leadingZeros (a : Word) : Nat := if a = 0 then 32 else 31 - a.toNat.log2

theorem clz_eq (a : Word) : clz a = BitVec.ofNat 32 (leadingZeros a) := by
  unfold clz leadingZeros
  split <;> rfl

theorem leadingZeros_spec (a : Word) :
    leadingZeros a ≤ 32 ∧ a.toNat < 2 ^ (32 - leadingZeros a) ∧ (leadingZeros a < 32 → a.getLsbD (31 - leadingZeros a) = true) := by
  unfold leadingZeros
  split
  next h => subst h; decide
  next h =>
    have nz : a.toNat ≠ 0 := fun k => h (BitVec.eq_of_toNat_eq k)
    have top : a.toNat.log2 < 32 := (Nat.log2_lt nz).mpr a.isLt
    refine ⟨by omega, ?_, fun _ => ?_⟩
    · rw [show 32 - (31 - a.toNat.log2) = a.toNat.log2 + 1 by omega]
      exact Nat.lt_log2_self
    · rw [show 31 - (31 - a.toNat.log2) = a.toNat.log2 by omega]
      exact Nat.testBit_log2 nz

/-- `vmovh` pushes the old value up by the fifteen bits of the immediate. -/
theorem shift_in_15 (a : Word) (i : BitVec 15) : (a <<< 15) ||| i.setWidth 32 = a.extractLsb' 0 17 ++ i := by
  apply BitVec.eq_of_getLsbD_eq
  intro j hj
  rw [BitVec.getLsbD_append]
  by_cases h : j < 15
  · simp [h, hj]
  · simp [h, hj, show j - 15 < 17 by omega, i.getLsbD_of_ge j (by omega), BitVec.getLsbD_eq_getElem (show j - 15 < 32 by omega)]

/-! ## The words of major 0x10 -/

theorem vmad_gives (d a b : BitVec 6) (s : State) :
    Gives (.vmad d a b) s (s.vsrc3 a b).2.2.2 (some 4) [s.vW d.toNat (Vector.ofFn fun l =>
      ((s.vsrc3 a b).1)[l] * ((s.vsrc3 a b).2.1)[l] + ((s.vsrc3 a b).2.2.1)[l])] := by
  rw [← vsrc3_vW s a b]
  exact (putV_puts ..).gives rfl

theorem vmovi_gives (d : BitVec 6) (i : BitVec 15) (s : State) :
    Gives (.vmovi d i) s s (some 4) [s.vW d.toNat (splat (i.signExtend 32))] := (putV_puts ..).gives rfl

theorem vmovh_gives (d : BitVec 6) (i : BitVec 15) (s : State) :
    Gives (.vmovh d i) s s (some 4) [s.vW d.toNat (Vector.ofFn fun l => ((s.V d.toNat)[l]).extractLsb' 0 17 ++ i)] := by
  refine (putV_puts s latV4 d.toNat _).gives ?_
  show Machine.done (s.putV latV4 d.toNat (vecMap (fun a => (a <<< 15) ||| i.setWidth 32) (s.V d.toNat))) = _
  simp only [shift_in_15, vecMap]

theorem vpopc_counts : Vec1 4 .vpopc fun _ a => BitVec.ofNat 32 ((List.range 32).filter fun k => a.getLsbD k).length :=
  (vec1_of_exec (f := fun _ => popcnt) fun _ _ _ => rfl).congr fun _ a => by rw [popcnt, popc_eq]; rfl

/-! ## The words of the immediate majors (R82) -/

theorem decodeWord_vaddi (h : Header) (d a : BitVec 6) (i : BitVec 10) :
    decodeWord (vecHead h 0x11 d ++ a ++ i) = .ok (.vaddi d a i) := by
  have major : fld (vecHead h 0x11 d ++ a ++ i) 22 6 = 0x11 := by
    rw [fld, extractLsb'_append_eq_of_le (by decide), extractLsb'_append_eq_of_le (by decide)]
    exact vecHead_major h 0x11 d
  have vd : fld (vecHead h 0x11 d ++ a ++ i) 16 6 = d := by
    rw [fld, extractLsb'_append_eq_of_le (by decide), extractLsb'_append_eq_of_le (by decide)]
    exact vecHead_vd h 0x11 d
  have va : fld (vecHead h 0x11 d ++ a ++ i) 10 6 = a := by
    rw [fld, extractLsb'_append_eq_of_le (by decide)]
    exact extractLsb'_append_eq_right
  have imm : fld (vecHead h 0x11 d ++ a ++ i) 0 10 = i := extractLsb'_append_eq_right
  apply decodeWord_ok
  rw [decodeFull_11 major, decodeMajor11, vd, va, imm]

/-- In major 0x12 bit 15 chooses between the two words, and no register stands in the place of `va`. -/
theorem decodeWord_major12 (h : Header) (d : BitVec 6) (t : BitVec 1) (i : BitVec 15) :
    decodeWord (vecHead h 0x12 d ++ t ++ i) = .ok (if t = 0 then .vmovi d i else .vmovh d i) := by
  have major : fld (vecHead h 0x12 d ++ t ++ i) 22 6 = 0x12 := by
    rw [fld, extractLsb'_append_eq_of_le (by decide), extractLsb'_append_eq_of_le (by decide)]
    exact vecHead_major h 0x12 d
  have vd : fld (vecHead h 0x12 d ++ t ++ i) 16 6 = d := by
    rw [fld, extractLsb'_append_eq_of_le (by decide), extractLsb'_append_eq_of_le (by decide)]
    exact vecHead_vd h 0x12 d
  have minor : fld (vecHead h 0x12 d ++ t ++ i) 15 1 = t := by
    rw [fld, extractLsb'_append_eq_of_le (by decide)]
    exact extractLsb'_append_eq_right
  have imm : fld (vecHead h 0x12 d ++ t ++ i) 0 15 = i := extractLsb'_append_eq_right
  apply decodeWord_ok
  rw [decodeFull_12 major, decodeMajor12, minor, vd, imm]
  obtain rfl | rfl : t = 0#1 ∨ t = 1#1 := by bv_omega
  · rfl
  · rfl

/-- Settles O5: each word is its mould, with the lane operation of the model in the form of R81 and R82. -/
theorem vectorArithmetic : Obligations.VectorArithmetic := by
  unfold Obligations.VectorArithmetic
  refine ⟨vec2_of_exec fun _ _ _ _ => rfl, vec2_of_exec fun _ _ _ _ => rfl, vec2_of_exec fun _ _ _ _ => rfl, ?mulhS, ?mulhU,
    vmad_gives, ?absd, vec2_of_exec fun _ _ _ _ => rfl, vec2_of_exec fun _ _ _ _ => rfl, vec2_of_exec fun _ _ _ _ => rfl,
    vec2_of_exec fun _ _ _ _ => rfl, ?shl, ?shr, ?sar, vpopc_counts, ⟨leadingZeros, ?clz, leadingZeros_spec⟩,
    fun i => vec1_of_exec fun _ _ _ => rfl, vmovi_gives, vmovh_gives, ?words⟩
  case mulhS => exact (vec2_of_exec (f := fun _ => mulhS) fun _ _ _ _ => rfl).congr fun _ => mulhS_eq
  case mulhU => exact (vec2_of_exec (f := fun _ => mulhU) fun _ _ _ _ => rfl).congr fun _ => mulhU_eq
  case absd => exact (vec2_of_exec (f := fun _ => absdS) fun _ _ _ _ => rfl).congr fun _ => ofNat_natAbs_sub
  case shl => exact (vec2_of_exec (f := fun _ a b => shl a b.toNat) fun _ _ _ _ => rfl).congr fun _ a b => shl_eq a b.toNat
  case shr => exact (vec2_of_exec (f := fun _ a b => shr a b.toNat) fun _ _ _ _ => rfl).congr fun _ a b => shr_eq a b.toNat
  case sar => exact (vec2_of_exec (f := fun _ a b => sar a b.toNat) fun _ _ _ _ => rfl).congr fun _ a b => sar_eq a b.toNat
  case clz => exact (vec1_of_exec (f := fun _ => clz) fun _ _ _ => rfl).congr fun _ => clz_eq
  case words =>
    intro h d a
    exact ⟨decodeWord_vaddi h d a, fun i => ⟨decodeWord_major12 h d 0 i, decodeWord_major12 h d 1 i⟩⟩

end Sys2Proof.Machine
end

section
/-!
Packed integers (R85 to R87), add-compare-select (R86) and dot products (R88): the lane operations, the writes of `vacs.h2` and the
words of majors 0x13 to 0x15.
-/
namespace Sys2Proof.Machine

/-! ## Saturation, minimum and maximum -/

theorem clampInt_eq {lo hi : Int} (h : lo ≤ hi) (x : Int) : clampInt lo hi x = max lo (min hi x) := by
  unfold clampInt
  split
  · omega
  · split <;> omega

/-- Saturation to a signed width clamps between its least and its greatest value. -/
theorem satS_eq (n : Nat) (x : Int) : satS n x = max (-(2 ^ (n - 1))) (min (2 ^ (n - 1) - 1) x) := by
  have pos : (0 : Int) < 2 ^ (n - 1) := Int.pow_pos (by decide)
  unfold satS
  push_cast
  exact clampInt_eq (by omega) x

/-- A choice by `slt` may be made by ≤ where equal values choose the same. -/
theorem ite_slt {n : Nat} {α : Type} {x y : BitVec n} {p q : α} (h : x = y → p = q) :
    (if x.slt y then p else q) = if x.toInt ≤ y.toInt then p else q := by
  rw [BitVec.slt]
  rcases Int.lt_trichotomy x.toInt y.toInt with k | k | k
  · simp [k, Int.le_of_lt k]
  · simp [h (BitVec.toInt_inj.mp k)]
  · simp [Int.not_lt.mpr (Int.le_of_lt k), Int.not_le.mpr k]

theorem smin_eq {n : Nat} (x y : BitVec n) : smin x y = if x.toInt ≤ y.toInt then x else y := ite_slt id

theorem smax_eq {n : Nat} (x y : BitVec n) : smax x y = if x.toInt ≤ y.toInt then y else x := ite_slt Eq.symm

/-! ## Half by half and byte by byte -/

theorem halves_of_exec {i : BitVec 6 → BitVec 6 → BitVec 6 → Instr} {f g : BitVec 16 → BitVec 16 → BitVec 16}
    (h : ∀ d a b s, exec (i d a b) s = Machine.done (vec2 latV4 (halves2 f) d a b s)) (e : ∀ x y, f x y = g x y) :
    Vec2 4 i fun _ => Halves g := by
  obtain rfl : f = g := funext fun x => funext fun y => e x y
  exact vec2_of_exec h

theorem bytes_of_exec {i : BitVec 6 → BitVec 6 → BitVec 6 → Instr} {f g : BitVec 8 → BitVec 8 → BitVec 8}
    (h : ∀ d a b s, exec (i d a b) s = Machine.done (vec2 latV4 (bytes2 f) d a b s)) (e : ∀ x y, f x y = g x y) :
    Vec2 4 i fun _ => Bytes g := by
  obtain rfl : f = g := funext fun x => funext fun y => e x y
  exact vec2_of_exec h

/-! ## Add-compare-select (R86) -/

/-- Two survivor bits shifted in below the older ones. -/
theorem shift_in_two (old : Word) (p q : Bool) :
    (old <<< 2) ||| (if p then 2#32 else 0#32) ||| (if q then 1#32 else 0#32) = old.extractLsb' 0 30 ++ BitVec.ofBool p ++ BitVec.ofBool q := by
  have bit (c : Bool) (k j : Nat) (hk : k < 32) : (if c then BitVec.twoPow 32 k else 0#32).getLsbD j = (c && decide (j = k)) := by
    cases c <;> simp [BitVec.getLsbD_twoPow, hk, eq_comm]
  apply BitVec.eq_of_getLsbD_eq
  intro j hj
  rw [show (2#32) = BitVec.twoPow 32 1 from rfl, show (1#32) = BitVec.twoPow 32 0 from rfl, BitVec.getLsbD_or, BitVec.getLsbD_or,
    bit p 1 j (by decide), bit q 0 j (by decide), BitVec.getLsbD_append, BitVec.getLsbD_append]
  match j, hj with
  | 0, _ => simp
  | 1, _ => simp
  | j + 2, hj => simp [show j < 30 by omega, hj, BitVec.getLsbD_eq_getElem (show j < 32 by omega)]

/-- Two vector results written one after the other. -/
theorem putV_putV_puts (s : State) (lat : Option Nat) (n m : Nat) (v w : VReg) :
    Puts s ((s.putV lat n v).putV lat m w) lat [s.vW n v, s.vW m w] := by
  have first := putV_puts s lat n v
  have second := putV_puts (s.putV lat n v) lat m w
  rw [first.vW] at second
  exact first.trans second

theorem acsNew_eq (x y : Word) :
    acsNew x y = (if acsWin x y 1 then half y 1 else half x 1) ++ (if acsWin x y 0 then half y 0 else half x 0) := rfl

theorem acsRecord_eq (x y old : Word) :
    acsRecord x y old = old.extractLsb' 0 30 ++ BitVec.ofBool (acsWin x y 1) ++ BitVec.ofBool (acsWin x y 0) := shift_in_two ..

theorem vacsH2_gives (d a b : BitVec 6) (s : State) :
    Gives (.vacsH2 d a b) s (s.vsrc2 a b).2.2 (some 4)
      [s.vW d.toNat (Vector.ofFn fun l => acsNew ((s.vsrc2 a b).1)[l] ((s.vsrc2 a b).2.1)[l]),
       s.vW (d.toNat + 1) (Vector.ofFn fun l => acsRecord ((s.vsrc2 a b).1)[l] ((s.vsrc2 a b).2.1)[l] (s.V (d.toNat + 1))[l])] := by
  rw [← vsrc2_vW s a b, ← vsrc2_vW s a b, ← vsrc2_V s a b]
  exact (putV_putV_puts ..).gives rfl

/-- Without a queue read a vector operand is bad as a register: beyond its class, or a group with a wrong base (R58, R72). -/
theorem badUnder_plain (r n : Nat) (rd wr : Bool) (k : Option Nat) :
    Opnd.badUnder 0#3 (.v r n rd wr k) = (decide (r + n > 64) || r % n != 0) := by
  cases k <;> simp [Opnd.badUnder, Opnd.bad]

theorem dqFieldBad_plain (o : Opnd) : dqFieldBad 0#3 o = false := by
  unfold dqFieldBad
  split <;> simp

/-- The cause of a vector word with no check of its own, where no operand comes from a queue. -/
theorem wordCause_plain {i : Instr} {v : VecInfo} (own : ownChecks i = []) (info : vecInfo i = some v) (fourth : v.v4 = .none)
    (need : v.need = false) :
    wordCause (some ⟨0, 0, 0, 0, 0, 0⟩) i = if (operands i).any (Opnd.badUnder 0#3) then some 5 else none := by
  have queues : (operands i).any (dqFieldBad 0#3) = false := by simp [dqFieldBad_plain]
  simp [wordCause, own, info, fourth, need, isCommand, queues, firstCause]

/-- `vacs.h2` writes a pair: of the checks on the word alone only that of an even `vd` can fail (R72). -/
theorem vacsH2_wf (d a b : BitVec 6) : (Instr.vacsH2 d a b).wf = decide (d.toNat % 2 = 0) := by
  have ops : operands (.vacsH2 d a b) =
    [.v d.toNat 2 true true none, .v a.toNat 1 true false (some 2), .v b.toNat 1 true false (some 1)] := rfl
  have own : ownChecks (.vacsH2 d a b) = [] := rfl
  have info : vecInfo (.vacsH2 d a b) = some ⟨true, false, false, .none, false, 0, 6⟩ := rfl
  have codes : (Instr.vacsH2 d a b).codesOk = true := rfl
  have distance : (Instr.vacsH2 d a b).distanceOk = true := rfl
  have bad : (operands (.vacsH2 d a b)).any (Opnd.badUnder 0#3) = !decide (d.toNat % 2 = 0) := by
    have hd := d.isLt
    have ha := a.isLt
    have hb := b.isLt
    rw [ops]
    simp only [List.any_cons, List.any_nil, badUnder_plain]
    rw [Bool.eq_iff_iff]
    simp only [Bool.or_eq_true, decide_eq_true_eq, bne_iff_ne, Bool.not_eq_true', decide_eq_false_iff_not, Bool.or_false]
    omega
  rw [Instr.wf, wordCause_plain own info rfl rfl, bad, codes, distance]
  cases decide (d.toNat % 2 = 0) <;> rfl

/-! ## Dot products (R88) -/

/-- An element of a dot product: a field of the lane, signed or not. -/
theorem dotElt_eq (x : Word) (i w : Nat) (sg : BitVec 1) :
    dotElt x i w (sg == 1) = if sg = 1 then (x.extractLsb' (w * i) w).toInt else (x.extractLsb' (w * i) w).toNat := by
  have field : (x.toNat >>> (w * i)) % 2 ^ w = (x.extractLsb' (w * i) w).toNat := (BitVec.extractLsb'_toNat ..).symm
  have lt : (x.extractLsb' (w * i) w).toNat < 2 ^ w := BitVec.isLt _
  have signed : sextNat (x.extractLsb' (w * i) w).toNat w = (x.extractLsb' (w * i) w).toInt := by
    rw [sextNat, Nat.mod_eq_of_lt lt, BitVec.toInt_eq_toNat_cond]
    split <;> split <;> omega
  simp only [dotElt, field, signed, beq_iff_eq]

theorem dotSum_eq (n w : Nat) (sa sb : Bool) (x y : Word) :
    dotSum n w sa sb x y = ((List.range n).map fun i => dotElt x i w sa * dotElt y i w sb).sum := by
  rw [dotSum, List.sum_eq_foldl, List.foldl_map]

/-- A dot product is exact, and then saturates or wraps. -/
theorem dotLane_eq (n w : Nat) (sa sb : Bool) (z : BitVec 1) (x y c : Word) :
    dotLane n w sa sb (z == 1) x y c =
      let t := c.toInt + ((List.range n).map fun i => dotElt x i w sa * dotElt y i w sb).sum
      BitVec.ofInt 32 (if z = 1 then max (-2147483648) (min 2147483647 t) else t) := by
  simp only [dotLane, dotSum_eq, satS_eq, beq_iff_eq]
  split <;> rfl

/-! ## The words of majors 0x13 to 0x15 -/

theorem decodes_major13 : DecodesV3 0x13 0 .vaddH2 ∧ DecodesV3 0x13 1 .vaddsH2 ∧ DecodesV3 0x13 2 .vsubH2 ∧ DecodesV3 0x13 3 .vsubsH2 ∧
    DecodesV3 0x13 4 .vminH2 ∧ DecodesV3 0x13 5 .vmaxH2 ∧ DecodesV3 0x13 6 .vacsH2 := by
  refine ⟨?_, ?_, ?_, ?_, ?_, ?_, ?_⟩
  all_goals exact decodesV3_of_major decodeFull_13 fun w h => by rw [decodeMajor13, h]; rfl

theorem decodes_major14 : DecodesV3 0x14 0 .vaddB4 ∧ DecodesV3 0x14 1 .vaddsB4 ∧ DecodesV3 0x14 2 .vminB4 ∧ DecodesV3 0x14 3 .vmaxB4 ∧
    DecodesV3 0x14 4 .vabsdB4 := by
  refine ⟨?_, ?_, ?_, ?_, ?_⟩
  all_goals exact decodesV3_of_major decodeFull_14 fun w h => by rw [decodeMajor14, h]; rfl

/-- The minor code of a dot product: the width of the elements, then the three flags. -/
theorem dot_minor {w : Word} {t a b z : BitVec 1} (h : fld w 0 4 = t ++ a ++ b ++ z) :
    fld w 3 1 = t ∧ fld w 2 1 = a ∧ fld w 1 1 = b ∧ fld w 0 1 = z := by
  rw [fld_of_minor h (by decide), fld_of_minor h (by decide), fld_of_minor h (by decide), fld_of_minor h (by decide)]
  clear h
  revert t a b z
  decide

theorem decodes_vdot (a b z : BitVec 1) :
    DecodesV3 0x15 (0#1 ++ a ++ b ++ z) (fun d x y => .vdot4 d x y a b z) ∧
      DecodesV3 0x15 (1#1 ++ a ++ b ++ z) (fun d x y => .vdot8 d x y a b z) := by
  refine ⟨?_, ?_⟩
  all_goals
    refine decodesV3_of_major decodeFull_15 fun w h => ?_
    obtain ⟨ht, ha, hb, hz⟩ := dot_minor h
    rw [decodeMajor15, ht, ha, hb, hz]
    rfl

/-- Settles O7: the moulds half by half and byte by byte, the two writes of `vacs.h2`, and the exact sums of the dot products. -/
theorem packedAndDotIntegers : Obligations.PackedAndDotIntegers := by
  unfold Obligations.PackedAndDotIntegers
  refine ⟨⟨halves_of_exec (fun _ _ _ _ => rfl) fun _ _ => rfl, ?addsH, halves_of_exec (fun _ _ _ _ => rfl) fun _ _ => rfl, ?subsH,
      halves_of_exec (fun _ _ _ _ => rfl) smin_eq, halves_of_exec (fun _ _ _ _ => rfl) smax_eq,
      bytes_of_exec (fun _ _ _ _ => rfl) fun _ _ => rfl, ?addsB, bytes_of_exec (fun _ _ _ _ => rfl) smin_eq,
      bytes_of_exec (fun _ _ _ _ => rfl) smax_eq, bytes_of_exec (fun _ _ _ _ => rfl) ofNat_natAbs_sub⟩, ?vacs, ⟨?dot4, ?dot8⟩, ?words⟩
  case addsH => exact halves_of_exec (fun _ _ _ _ => rfl) fun x y => by rw [satS_eq]
  case subsH => exact halves_of_exec (fun _ _ _ _ => rfl) fun x y => by rw [satS_eq]
  case addsB => exact bytes_of_exec (fun _ _ _ _ => rfl) fun x y => by rw [satS_eq]
  case vacs =>
    intro d a b s
    have k := vacsH2_gives d a b s
    simp only [acsNew_eq, acsRecord_eq] at k
    exact k
  case dot4 =>
    intro a b z
    refine (vecAcc_of_exec (f := fun _ => dotLane 4 8 (a == 1) (b == 1) (z == 1)) fun _ _ _ _ => rfl).congr fun _ x y c => ?_
    simp only [dotLane_eq, dotElt_eq]
  case dot8 =>
    intro a b z
    refine (vecAcc_of_exec (f := fun _ => dotLane 8 4 (a == 1) (b == 1) (z == 1)) fun _ _ _ _ => rfl).congr fun _ x y c => ?_
    simp only [dotLane_eq, dotElt_eq]
  case words =>
    obtain ⟨h0, h1, h2, h3, h4, h5, h6⟩ := decodes_major13
    obtain ⟨b0, b1, b2, b3, b4⟩ := decodes_major14
    exact ⟨h0, h1, h2, h3, h4, h5, h6, vacsH2_wf, b0, b1, b2, b3, b4, decodes_vdot⟩

end Sys2Proof.Machine
end

section
/-!
Fused multiply-add (R90): the words of major 0x19, the lanes in the three formats, and the values of R73 where the product or the sum
is no number or an exact zero.
-/
namespace Sys2Proof.Machine

/-! ## The words of major 0x19 -/

/-- The minor code of a fused word: the format, then the form. -/
theorem fma_minor {w : Word} {f o : BitVec 2} (h : fld w 0 4 = f ++ o) : fld w 2 2 = f ∧ fld w 0 2 = o := by
  rw [fld_of_minor h (by decide), fld_of_minor h (by decide)]
  clear h
  revert f o
  decide

theorem decodes_fma (f : BitVec 2) (h : f ≠ 3#2) :
    DecodesV3 0x19 (f ++ 0#2) (.vffma · · · f) ∧ DecodesV3 0x19 (f ++ 1#2) (.vffms · · · f) ∧ DecodesV3 0x19 (f ++ 2#2) (.vfnma · · · f) := by
  refine ⟨?_, ?_, ?_⟩
  all_goals
    refine decodesV3_of_major decodeFull_19 fun w k => ?_
    obtain ⟨hf, ho⟩ := fma_minor k
    rw [decodeMajor19, hf, ho, if_neg h]
    rfl

/-- A reserved format or form is refused. -/
theorem decode_fma_reserved {w : Word} {f o : BitVec 2} (major : fld w 22 6 = 0x19) (minor : fld w 0 4 = f ++ o) (h : f = 3#2 ∨ o = 3#2) :
    ∃ e, decodeWord w = .error e := by
  obtain ⟨hf, ho⟩ := fma_minor minor
  refine decodeWord_error (e := (3, none)) ?_
  rw [decodeFull_19 major, decodeMajor19, hf, ho]
  split
  next => rfl
  next k =>
    obtain rfl := h.resolve_left k
    rfl

/-! ## The lanes -/

/-- A fused form in each of the three formats, whatever signs it gives the product and the addend. -/
theorem fma_moulds {i : BitVec 6 → BitVec 6 → BitVec 6 → BitVec 2 → Instr} {np nc : Bool}
    (h : ∀ d a b f s, exec (i d a b f) s = Machine.done (vecAcc latV6 (fmaLane f s.mode np nc) d a b s)) :
    VecAcc 6 (fun d a b => i d a b 0) (fun m => fmaLane 0 m np nc) ∧ VecAcc 6 (fun d a b => i d a b 1) (fun m => fmaLane 1 m np nc) ∧
      VecAcc 6 (fun d a b => i d a b 2) (fun m => fmaLane 2 m np nc) :=
  ⟨vecAcc_of_exec fun d a b => h d a b 0, vecAcc_of_exec fun d a b => h d a b 1, vecAcc_of_exec fun d a b => h d a b 2⟩

/-! ## Products and sums that are no numbers, and exact zeros (R73) -/

/-- The codes that the special cases are made of, and what they stand for. -/
theorem decode_special : ∀ f ∈ [fp32, fp16, bf16],
    f.decode 0 = .num ⟨false, 0, 1 - f.bias - f.mb⟩ ∧ f.decode (2 ^ (f.eb + f.mb) - 2 ^ f.mb) = .inf false ∧
    f.decode (2 ^ (f.width - 1) + 2 ^ (f.eb + f.mb) - 2 ^ f.mb) = .inf true ∧
    f.decode ((2 ^ (f.eb - 1) - 1) * 2 ^ f.mb) = .num ⟨false, 2 ^ f.mb, -f.mb⟩ ∧
    f.decode (2 ^ (f.width - 1) + (2 ^ (f.eb - 1) - 1) * 2 ^ f.mb) = .num ⟨true, 2 ^ f.mb, -f.mb⟩ := by decide

theorem ffma_of_product_nan {f : Fmt} {m : RMode} {np nc : Bool} {x y c : Nat} (h : (f.decode x).mul (f.decode y) = .nan) :
    ffma f m np nc x y c = f.nanCode := by
  simp only [ffma, h]
  cases np <;> rfl

theorem neg_inf_if (np p : Bool) : (if np then (FVal.inf p).neg else .inf p) = .inf (p != np) := by
  cases np <;> simp [FVal.neg]

/-- The sum of infinities of opposite sign is no number. -/
theorem ffma_of_infs {f : Fmt} {m : RMode} {np nc p q : Bool} {x y c : Nat} (hp : (f.decode x).mul (f.decode y) = .inf p)
    (hc : f.decode c = .inf q) (h : (p != np) ≠ (q != nc)) : ffma f m np nc x y c = f.nanCode := by
  simp only [ffma, hp, hc, neg_inf_if, FVal.add, if_neg h, Fmt.rnd]

theorem Dy.scaled_pos (n : Nat) (x e : Int) : (⟨false, n, x⟩ : Dy).scaled e = (n <<< (x - e).toNat : Nat) := rfl
theorem Dy.scaled_neg (n : Nat) (x e : Int) : (⟨true, n, x⟩ : Dy).scaled e = -(n <<< (x - e).toNat : Nat) := rfl

/-- An exact zero of terms of opposite sign is +0, and −0 under `.rmi` (R73). -/
theorem Dy.add_cancels {a b : Dy} (m : RMode) (sign : a.neg ≠ b.neg)
    (sum : a.scaled (min a.exp b.exp) + b.scaled (min a.exp b.exp) = 0) : a.add m b = Dy.zero (m = .rmi) := by
  simp only [Dy.add, if_pos sum, if_neg sign, Dy.zero]

/-- 1 × 1 − 1 is an exact zero of terms of opposite sign. -/
theorem one_mul_one_sub_one (k : Nat) (m : RMode) :
    ((⟨false, 2 ^ k, -k⟩ : Dy).mul ⟨false, 2 ^ k, -k⟩).add m ⟨true, 2 ^ k, -k⟩ = Dy.zero (m = .rmi) := by
  have product : (⟨false, 2 ^ k, -k⟩ : Dy).mul ⟨false, 2 ^ k, -k⟩ = ⟨false, 2 ^ k * 2 ^ k, -k + -k⟩ := rfl
  have least : min (-(k : Int) + -k) (-k) = -k + -k := by omega
  have up : (-(k : Int) - (-k + -k)).toNat = k := by omega
  rw [product]
  refine Dy.add_cancels m Bool.false_ne_true ?_
  rw [least, Dy.scaled_pos, Dy.scaled_neg, up, Int.sub_self, Int.toNat_zero, Nat.shiftLeft_zero, Nat.shiftLeft_eq]
  exact Int.add_right_neg _

/-- A zero rounds to the code of its sign alone. -/
theorem rnd_zero (f : Fmt) (m : RMode) (neg : Bool) : f.rnd m (.num (Dy.zero neg)) = if neg then 2 ^ (f.width - 1) else 0 := by
  simp [Fmt.rnd, Dy.zero, Fmt.withSign, Fmt.width]

/-- The example of R90: rounded before the sum, the product is 1 and the result 0. -/
theorem ffma_example : ffma fp32 .rn false false 0x3F800001 0x3F7FFFFE 0xBF800000 = 0xA8800000 := by decide

/-- Settles O10: every form is one rounding of the exact sum, so the special cases are facts about exact values alone. -/
theorem fusedMultiplyAdd : Obligations.FusedMultiplyAdd := by
  unfold Obligations.FusedMultiplyAdd
  refine ⟨fma_moulds fun _ _ _ _ _ => rfl, fma_moulds fun _ _ _ _ _ => rfl, fma_moulds fun _ _ _ _ _ => rfl, decodes_fma,
    fun w f o => decode_fma_reserved, ?_, ?_, ffma_example⟩
  · intro f hf m a c
    obtain ⟨zero, inf, ninf, -, -⟩ := decode_special f hf
    exact ⟨ffma_of_product_nan (by rw [zero, inf]; rfl), ffma_of_product_nan (by rw [zero, ninf]; rfl)⟩
  · intro f hf m
    obtain ⟨-, inf, -, one, minusOne⟩ := decode_special f hf
    have product : (f.decode (2 ^ (f.eb + f.mb) - 2 ^ f.mb)).mul (f.decode ((2 ^ (f.eb - 1) - 1) * 2 ^ f.mb)) = .inf false := by
      rw [inf, one]
      simp [FVal.mul]
    refine ⟨ffma_of_infs product inf (by decide), ffma_of_infs product inf (by decide), ?_⟩
    simp only [one, minusOne, FVal.mul, FVal.add, Bool.false_eq_true, if_false]
    rw [one_mul_one_sub_one, rnd_zero]
    simp

end Sys2Proof.Machine
end
